-- ==== Sys2Proof/Word.lean ====
section
/-! DEFINITION. The two word types of the core (00_scope.md R6, section 5). -/

namespace Sys2Proof

/-- A u32: a state word, a register or a command word. -/
abbrev Word := BitVec 32

/-- A u8: a byte of buffer memory, key, nonce or keystream. -/
abbrev Byte := BitVec 8

end Sys2Proof
end

