-- ==== Sys2Proof/Config.lean ====
section
/-! DEFINITION. What one implementation fixes (00_scope.md R6, R7): the open parameters and the fixed sizes. -/

namespace Sys2Proof

/-- The open size of the buffer memory, 1 ≤ `BUF_BYTES` ≤ 2^32 (00_scope.md R7, D13), held as the address of the last
buffer byte so that no other size can be written. DESIGN CHOICE, log entry 3: it stands in State, and no step changes it. -/
structure Config where
  bufLast : Fin 4294967296
  deriving DecidableEq, Repr

/-- The number of bytes of the buffer memory (00_scope.md R7). -/
def Config.BUF_BYTES (c : Config) : Nat := c.bufLast.val + 1

/-- The buffer size the spec's programs assume (95_test_vectors.md, conventions). DESIGN CHOICE, unsafe, log entry 3. -/
def Config.programs256 : Config := ⟨255⟩

/-- The platform address of the register window: OPEN, enters no rule (00_scope.md R7, I9). No value of it can be known. -/
opaque Config.REG_BASE : Nat

/-- The size of the register window in bytes (00_scope.md R7). -/
def Config.windowBytes : Nat := 0x100

/-- The one legal key length in bytes (00_scope.md R6). -/
def Config.keyBytes : Nat := 32

/-- The one legal nonce length in bytes (00_scope.md R6). -/
def Config.nonceBytes : Nat := 12

/-- The legal round counts (00_scope.md R6). -/
def Config.legalRounds : List Nat := [8, 12, 20]

/-- The size of a keystream block in bytes (00_scope.md R6). -/
def Config.blockBytes : Nat := 64

end Sys2Proof
end

