-- ==== Sys2Proof/Syntax.lean ====
section
/-! DEFINITION. The commands of the core: one constructor for each row of spec/opcode_table.json. -/

namespace Sys2Proof

/-- A decoded command (30_encoding.md R84). The fields of CONSTRUCT are naturals, zero-extended from the word (R82); the
words that decode as ILLEGAL have no row in the table and no constructor here. -/
inductive Instr where
  /-- CONSTRUCT (40_instance.md R100): key length, nonce length, round count. -/
  | construct (klen nlen rc : Nat)
  /-- TRANSFORM (40_instance.md R101). -/
  | transform
  /-- DISCARD (40_instance.md R102). -/
  | discard
  deriving DecidableEq, Repr

end Sys2Proof
end

