-- ==== Sys2Proof/WellFormed.lean ====
section
/-! DEFINITION. Which instruction terms a command word can carry. -/

namespace Sys2Proof

/-- Each field of CONSTRUCT takes any value 0..255 and no other (30_encoding.md R82). TRANSFORM and DISCARD have no field. -/
def Instr.wellFormed : Instr → Bool
  | .construct klen nlen rc => klen < 256 && nlen < 256 && rc < 256
  | .transform => true
  | .discard => true

end Sys2Proof
end

