-- ==== Sys2Proof/Decode.lean ====
section
/-! DEFINITION. The command word: its fields, the decoder and the encoder (30_encoding.md R80 to R88). -/

namespace Sys2Proof

/-- OP, bits 3:0 (30_encoding.md R81). -/
def fieldOP (v : Word) : BitVec 4 := v.extractLsb' 0 4

/-- RSV, bits 7:4 (30_encoding.md R81). -/
def fieldRSV (v : Word) : BitVec 4 := v.extractLsb' 4 4

/-- KLEN, bits 15:8 (30_encoding.md R81). -/
def fieldKLEN (v : Word) : BitVec 8 := v.extractLsb' 8 8

/-- NLEN, bits 23:16 (30_encoding.md R81). -/
def fieldNLEN (v : Word) : BitVec 8 := v.extractLsb' 16 8

/-- RCNT, bits 31:24 (30_encoding.md R81). -/
def fieldRCNT (v : Word) : BitVec 8 := v.extractLsb' 24 8

/-- Bits 31:8, which must be zero in TRANSFORM and DISCARD (30_encoding.md R81, R84). -/
def fieldZERO (v : Word) : BitVec 24 := v.extractLsb' 8 24

/-- Why a word is ILLEGAL. The core does not report which (60_exceptions.md R200): every one of them raises
ILLEGAL_COMMAND. Log entry 13. -/
inductive Reject where
  /-- RSV is not zero (30_encoding.md R86). -/
  | rsvNotZero
  /-- OP is 0x0 or 0x4 .. 0xF (30_encoding.md R85). -/
  | reservedOp
  /-- Bits 31:8 of TRANSFORM or DISCARD are not zero (30_encoding.md R86). -/
  | mustBeZero
  deriving DecidableEq, Repr

/-- The decoder (30_encoding.md R84), total on all 2^32 words; ILLEGAL is the error case. -/
def decode (v : Word) : Except Reject Instr :=
  if fieldRSV v ≠ 0 then .error .rsvNotZero
  else if fieldOP v = 1 then
    .ok (.construct (fieldKLEN v).toNat (fieldNLEN v).toNat (fieldRCNT v).toNat)
  else if fieldOP v = 2 then
    if fieldZERO v ≠ 0 then .error .mustBeZero else .ok .transform
  else if fieldOP v = 3 then
    if fieldZERO v ≠ 0 then .error .mustBeZero else .ok .discard
  else .error .reservedOp

/-- The command word of a well-formed instruction, from the table of 30_encoding.md R81. -/
def encode : Instr → Word
  | .construct klen nlen rc =>
    (BitVec.ofNat 32 rc <<< 24) ||| (BitVec.ofNat 32 nlen <<< 16) ||| (BitVec.ofNat 32 klen <<< 8) ||| 0x1#32
  | .transform => 0x00000002#32
  | .discard => 0x00000003#32

/-- The command word that the low `nbits` bits of `w` stand for, the bits above them zero (30_encoding.md R80: one word of
32 bits, no other length). Log entry 10. -/
def tableWord (nbits w : Nat) : Word := BitVec.ofNat 32 (w % 2 ^ nbits)

/-- What the decoder reads from a word numbered as opcode_table.json numbers it. No command is longer than 32 bits
(30_encoding.md R80, R88). -/
def decodeTableWord (nbits w : Nat) : Option Instr :=
  if nbits ≤ 32 then (decode (tableWord nbits w)).toOption else none

end Sys2Proof
end

