-- ==== Sys2Proof/Machine/State.lean ====
section
/-! DEFINITION. The state of the machine, the reasons a step can stop, and the state after reset (10_state.md). -/

namespace Sys2Proof.Machine

/-- The state matrix S and the working matrix W: 16 words (10_state.md R20, R24). -/
abbrev StateMatrix := Vector Word 16

/-- Buffer memory: the written bytes, addresses strictly rising. An address that is not listed is unwritten
(10_state.md R35): it reads as no value. -/
abbrev Memory := List Host.Cell

/-- The result codes of a command (60_exceptions.md R200). The codes 5 to 15 are never produced, so they have no
constructor. -/
inductive ErrCode where
  | ok
  | invalidParameter
  | notConstructed
  | bufferRange
  | illegalCommand
  deriving DecidableEq, Repr

/-- The registers of the window (10_state.md R36). -/
inductive Reg where
  | key (j : Fin 8)
  | nonce (j : Fin 3)
  | ctrInit
  | bufBase
  | bufLen
  | cmd
  | status
  | counter
  | rounds
  /-- The reserved slot at offset 0x48 + 4k (20_memory.md R56). -/
  | reserved (k : Fin 46)
  deriving DecidableEq, Repr

/-- One host access as the host attempts it (20_memory.md R51 to R55). A register access carries the width in bits it is
attempted with, so that those R51 does not accessedReg can be written down; a buffer access is one byte. -/
inductive HostAccess where
  | regWrite (width off : Nat) (v : Word)
  | regRead (width off : Nat)
  | bufWrite (a : Nat) (v : Byte)
  | bufRead (a : Nat)
  deriving DecidableEq, Repr

/-- A statement of a host program (30_encoding.md R89). -/
inductive Stmt where
  | access (a : HostAccess)
  | poll
  deriving DecidableEq, Repr

/-- A completed bus transaction with its data: `W off data`, `R off`, `WB addr data`, `RB addr` of 30_encoding.md R89. -/
inductive Transaction where
  | regW (off : Nat) (data : Word)
  | regR (off : Nat) (data : Word)
  | bufW (a : Nat) (data : Byte)
  | bufR (a : Nat) (data : Byte)
  deriving DecidableEq, Repr

/-- Who moves at a step: one of the two agents, or the reset event (20_memory.md R68). -/
inductive Turn where
  | host
  | core
  | reset
  deriving DecidableEq, Repr

/-- The model faults of 60_exceptions.md R207. -/
inductive Fault where
  /-- Raised by a host access other than a STATUS read while BUSY = 1 (70_reset_and_hazards.md R240). Safe: the device
  behaviour is undefined and the model stops. -/
  | hostAccessWhileBusy
  /-- Raised by a read of the unwritten buffer byte `a`, by the host or by TRANSFORM (20_memory.md R52, R57). Safe: the
  device would go on with some value and the model stops. -/
  | unwrittenRead (a : Nat)
  deriving DecidableEq, Repr

/-- The refusals of 60_exceptions.md R207, and the name kept for an instruction without a meaning. -/
inductive Refusal where
  /-- Raised by no arm of exec: every instruction has its meaning. Safe. -/
  | notModelled (mnemonic : String)
  /-- Raised by a register access of another width than 32, misaligned, or at an offset ≥ 0x100 (20_memory.md R51). Safe:
  the access has no meaning. -/
  | registerAccess (width off : Nat)
  /-- Raised by a host buffer access at an address ≥ BUF_BYTES (20_memory.md R52, R53). Safe: the access has no meaning. -/
  | bufferAddress (a : Nat)
  deriving DecidableEq, Repr

/-- The machine (10_state.md), its configuration, and the host that drives it. -/
structure State where
  /-- The open parameter BUF_BYTES; no step changes it (log entry 3). -/
  cfg : Config
  /-- The state matrix (10_state.md R20). -/
  S : StateMatrix
  /-- The round count (10_state.md R22). -/
  R : Byte
  /-- An instance exists (10_state.md R23). -/
  VALID : Bool
  /-- A command is pending (10_state.md R31). -/
  BUSY : Bool
  /-- The result code of the last completed command (10_state.md R31). -/
  ERR : ErrCode
  /-- The pending-command latch (10_state.md R30). -/
  PCMD : Word
  /-- The key staging registers (10_state.md R26). -/
  KEY : Vector Word 8
  /-- The nonce staging registers (10_state.md R27). -/
  NONCE : Vector Word 3
  /-- The initial counter (10_state.md R28). -/
  CTR_INIT : Word
  /-- The first buffer byte of TRANSFORM (10_state.md R29). -/
  BUF_BASE : Word
  /-- The byte length of TRANSFORM (10_state.md R29). -/
  BUF_LEN : Word
  /-- The buffer memory (10_state.md R35). -/
  BUF : Memory
  /-- The host's remaining statements (30_encoding.md R89; the model's own field, log entry 2). -/
  program : List Stmt
  /-- The bus transactions completed, oldest first (30_encoding.md R89; the model's own field, log entry 2). -/
  trace : List Transaction
  /-- The schedule: who moves at each coming step (the model's own field, log entry 1). -/
  turns : List Turn
  deriving DecidableEq, Repr

/-- The machine of configuration `c` right after reset (10_state.md R37), with no host program and no schedule. -/
def State.resetFor (c : Config) : State where
  cfg := c
  S := Vector.replicate 16 0
  R := 0
  VALID := false
  BUSY := false
  ERR := .ok
  PCMD := 0
  KEY := Vector.replicate 8 0
  NONCE := Vector.replicate 3 0
  CTR_INIT := 0
  BUF_BASE := 0
  BUF_LEN := 0
  BUF := []
  program := []
  trace := []
  turns := []

/-- The machine right after reset, with the 256-byte buffer the spec's programs assume (log entry 3). -/
def State.reset : State := State.resetFor Config.programs256

end Sys2Proof.Machine
end

