-- ==== Sys2Proof/Machine/Operands.lean ====
section
/-! DEFINITION. The primitives of 00_scope.md R8 to R13 and the operands the commands read from registers
(30_encoding.md R83). -/

namespace Sys2Proof.Machine

/-- add32 (00_scope.md R8): the carry out is discarded. -/
def add32 (a b : Word) : Word := a + b

/-- rotl32 (00_scope.md R10), for 0 < n < 32. -/
def rotl32 (x : Word) (n : Nat) : Word := (x <<< n) ||| (x >>> (32 - n))

/-- zext32 (00_scope.md R13). -/
def zext32 {w : Nat} (v : BitVec w) : Word := v.setWidth 32

/-- le32 (00_scope.md R11): the little-endian load of 4 bytes of `b` starting at index `i`. -/
def le32 {n : Nat} (b : Vector Byte n) (i : Nat) (h : i + 3 < n := by omega) : Word :=
  zext32 b[i] ||| zext32 b[i + 1] <<< 8 ||| zext32 b[i + 2] <<< 16 ||| zext32 b[i + 3] <<< 24

/-- Byte k of a word, bits 8k+7 : 8k (00_scope.md R12; 20_memory.md R58). -/
def byteOf (w : Word) (k : Nat) : Byte := w.extractLsb' (8 * k) 8

/-- le32_bytes (00_scope.md R12). -/
def le32Bytes (w : Word) : Vector Byte 4 := #v[byteOf w 0, byteOf w 1, byteOf w 2, byteOf w 3]

/-- ceil_div(n, 64) (00_scope.md section 5): the least q with 64 q ≥ n. -/
def ceilDiv64 (n : Nat) : Nat := (n + 63) / 64

/-- The 32 key bytes the staging registers hold (10_state.md R26). -/
def keyOf (KEY : Vector Word 8) : Vector Byte 32 :=
  Vector.ofFn fun i => byteOf (KEY[i.val / 4]'(by omega)) (i.val % 4)

/-- The 12 nonce bytes the staging registers hold (10_state.md R27). -/
def nonceOf (NONCE : Vector Word 3) : Vector Byte 12 :=
  Vector.ofFn fun i => byteOf (NONCE[i.val / 4]'(by omega)) (i.val % 4)

/-- The parameters CONSTRUCT accepts (40_instance.md R100): no clamping, no defaulting. -/
def legalParameters (klen nlen rc : Nat) : Bool :=
  klen == Config.keyBytes && nlen == Config.nonceBytes && Config.legalRounds.contains rc

/-- BUF_BASE as a natural (10_state.md R29). -/
def windowBase (s : State) : Nat := s.BUF_BASE.toNat

/-- BUF_LEN as a natural (10_state.md R29). -/
def windowLen (s : State) : Nat := s.BUF_LEN.toNat

/-- The window fits in the buffer memory (40_instance.md R101, D13): no wrap, and a window of length 0 always fits. -/
def windowInRange (s : State) : Bool := decide (windowLen s = 0 ∨ windowBase s + windowLen s ≤ s.cfg.BUF_BYTES)

end Sys2Proof.Machine
end

