-- ==== Sys2Proof/Machine/Flags.lean ====
section
/-! DEFINITION. The STATUS word (10_state.md R31) and the codes of its ERR field (60_exceptions.md R200). -/

namespace Sys2Proof.Machine

/-- The 4-bit code of a result (60_exceptions.md R200). -/
def errBits : ErrCode → BitVec 4
  | .ok => 0
  | .invalidParameter => 1
  | .notConstructed => 2
  | .bufferRange => 3
  | .illegalCommand => 4

/-- STATUS = zext32(BUSY) | zext32(VALID) << 1 | zext32(ERR) << 4 (10_state.md R31). -/
def statusWord (s : State) : Word :=
  zext32 (BitVec.ofBool s.BUSY) ||| zext32 (BitVec.ofBool s.VALID) <<< 1 ||| zext32 (errBits s.ERR) <<< 4

end Sys2Proof.Machine
end

