-- ==== Sys2Proof/Machine/Ops.lean ====
section
/-! DEFINITION. The named operations over memory, the instance and the register window that the meanings share. -/

namespace Sys2Proof.Machine

/-- BUF[a]: its value, or nothing when the byte is unwritten (10_state.md R35). -/
def Memory.read : Memory → Nat → Option Byte
  | [], _ => none
  | (k, v) :: m, a => if k = a then some v else Memory.read m a

/-- BUF[a] <- v: the byte is now written (20_memory.md R53). The addresses stay strictly rising. -/
def Memory.write : Memory → Nat → Byte → Memory
  | [], a, v => [(a, v)]
  | (k, w) :: m, a, v =>
    if a < k then (a, v) :: (k, w) :: m
    else if a = k then (a, v) :: m
    else (k, w) :: Memory.write m a v

/-- The canonical form: addresses strictly rising. An unwritten byte has no value, so no entry can repeat what an unlisted
address reads as. -/
def Memory.wf : Memory → Bool
  | [] => true
  | [_] => true
  | c :: d :: m => c.1 < d.1 && Memory.wf (d :: m)

/-- Every written byte lies below address `n`. -/
def Memory.below (n : Nat) (m : Memory) : Bool := m.all fun c => c.1 < n

/-- Completion of a command (60_exceptions.md R201). -/
def complete (s : State) : State := { s with BUSY := false }

/-- raise Err(code) (00_scope.md R14): the one way a command reports an error. ERR takes the code and the command
completes. -/
def raiseErr (code : ErrCode) (s : State) : State := complete { s with ERR := code }

/-- The normal end of a command: ERR <- OK, then completion (00_scope.md R14, 60_exceptions.md R201). -/
def succeed (s : State) : State := complete { s with ERR := .ok }

/-- The instance becomes (S, R) (40_instance.md R100). -/
def setInstance (S : StateMatrix) (R : Byte) (s : State) : State := { s with S := S, R := R, VALID := true }

/-- No instance exists: S <- 0, R <- 0, VALID <- 0 (40_instance.md R100, R102). -/
def clearInstance (s : State) : State := { s with S := Vector.replicate 16 0, R := 0, VALID := false }

/-- A write to CMD: PCMD <- v, BUSY <- 1 (20_memory.md R54). -/
def latchCommand (v : Word) (s : State) : State := { s with PCMD := v, BUSY := true }

/-- The reset event (70_reset_and_hazards.md R230): every piece of the core's state takes its value of 10_state.md R37. The
configuration, the host's program and trace and the schedule are not the core's (log entry 7). -/
def resetEvent (s : State) : State :=
  { State.resetFor s.cfg with program := s.program, trace := s.trace, turns := s.turns }

/-- The host has completed transaction `t` (30_encoding.md R89). -/
def record (t : Transaction) (s : State) : State := { s with trace := s.trace ++ [t] }

/-- The offset of a register (10_state.md R36). -/
def Reg.offset : Reg → Nat
  | .key j => 4 * j.val
  | .nonce j => 0x20 + 4 * j.val
  | .ctrInit => 0x2C
  | .bufBase => 0x30
  | .bufLen => 0x34
  | .cmd => 0x38
  | .status => 0x3C
  | .counter => 0x40
  | .rounds => 0x44
  | .reserved k => 0x48 + 4 * k.val

/-- The register in slot `n` of the window, the slot of offset 4n (10_state.md R36). -/
def slotReg (n : Nat) : Option Reg :=
  if h : n < 8 then some (.key ⟨n, h⟩)
  else if h : n - 8 < 3 then some (.nonce ⟨n - 8, h⟩)
  else if n = 11 then some .ctrInit
  else if n = 12 then some .bufBase
  else if n = 13 then some .bufLen
  else if n = 14 then some .cmd
  else if n = 15 then some .status
  else if n = 16 then some .counter
  else if n = 17 then some .rounds
  else if h : n - 18 < 46 then some (.reserved ⟨n - 18, h⟩)
  else none

/-- The register an access of `width` bits at `off` reaches, or nothing when 20_memory.md R51 does not accessedReg it: only a
32-bit access at a multiple of 4 below 0x100 is. -/
def accessedReg (width off : Nat) : Option Reg :=
  if width = 32 ∧ off % 4 = 0 ∧ off < Config.windowBytes then slotReg (off / 4) else none

/-- The effect of an admitted register write (20_memory.md R54, R56). Writes to read-only and reserved registers have no
effect. -/
def writeReg : Reg → Word → State → State
  | .key j, v, s => { s with KEY := s.KEY.set j v }
  | .nonce j, v, s => { s with NONCE := s.NONCE.set j v }
  | .ctrInit, v, s => { s with CTR_INIT := v }
  | .bufBase, v, s => { s with BUF_BASE := v }
  | .bufLen, v, s => { s with BUF_LEN := v }
  | .cmd, v, s => latchCommand v s
  | .status, _, s => s
  | .counter, _, s => s
  | .rounds, _, s => s
  | .reserved _, _, s => s

/-- The value an admitted register read returns (20_memory.md R55, R56). -/
def readReg : Reg → State → Word
  | .key j, s => s.KEY[j]
  | .nonce j, s => s.NONCE[j]
  | .ctrInit, s => s.CTR_INIT
  | .bufBase, s => s.BUF_BASE
  | .bufLen, s => s.BUF_LEN
  | .cmd, _ => 0
  | .status, s => statusWord s
  | .counter, s => s.S[12]
  | .rounds, s => zext32 s.R
  | .reserved _, _ => 0

/-- The host address of byte `k` of register `r` when a platform maps the window into a byte-addressed space
(20_memory.md R60). No other definition uses it. -/
def hostAddress (r : Reg) (k : Fin 4) : Nat := Config.REG_BASE + r.offset + k.val

/-- The bits byte `k` of a register holds at that host address (20_memory.md R60). -/
def hostByte (r : Reg) (k : Fin 4) (s : State) : Byte := byteOf (readReg r s) k.val

end Sys2Proof.Machine
end

