-- ==== Sys2Proof/Machine/Initializer.lean ====
section
/-! DEFINITION. The state initializer (41_state_initializer.md). -/

namespace Sys2Proof.Machine

/-- INIT_STATE (41_state_initializer.md R120): the four constants, the key, the counter, the nonce. -/
def initState (key : Vector Byte 32) (nonce : Vector Byte 12) (ctr : Word) : StateMatrix :=
  #v[0x61707865, 0x3320646e, 0x79622d32, 0x6b206574,
     le32 key 0, le32 key 4, le32 key 8, le32 key 12,
     le32 key 16, le32 key 20, le32 key 24, le32 key 28,
     ctr, le32 nonce 0, le32 nonce 4, le32 nonce 8]

end Sys2Proof.Machine
end

