-- ==== Sys2Proof/Machine/QuarterRound.lean ====
section
/-! DEFINITION. The quarter-round mixing engine (42_quarter_round.md). -/

namespace Sys2Proof.Machine

/-- QR (42_quarter_round.md R130): twelve steps, in this order. -/
def qr (a b c d : Word) : Word × Word × Word × Word :=
  let a := add32 a b; let d := d ^^^ a; let d := rotl32 d 16
  let c := add32 c d; let b := b ^^^ c; let b := rotl32 b 12
  let a := add32 a b; let d := d ^^^ a; let d := rotl32 d 8
  let c := add32 c d; let b := b ^^^ c; let b := rotl32 b 7
  (a, b, c, d)

/-- An index quadruple: the words that take the roles of a, b, c and d (42_quarter_round.md R131). -/
structure Quad where
  a : Fin 16
  b : Fin 16
  c : Fin 16
  d : Fin 16
  deriving DecidableEq, Repr

/-- The four words of a quadruple take the values of `r` (42_quarter_round.md R131). -/
def writeQuad (W : StateMatrix) (q : Quad) (r : Word × Word × Word × Word) : StateMatrix :=
  (((W.set q.a r.1).set q.b r.2.1).set q.c r.2.2.1).set q.d r.2.2.2

/-- QR_AT (42_quarter_round.md R131): the four words are read before any is written. -/
def qrAt (W : StateMatrix) (q : Quad) : StateMatrix := writeQuad W q (qr W[q.a] W[q.b] W[q.c] W[q.d])

/-- The column quadruples (42_quarter_round.md R132). -/
def columnQuads : List Quad := [⟨0, 4, 8, 12⟩, ⟨1, 5, 9, 13⟩, ⟨2, 6, 10, 14⟩, ⟨3, 7, 11, 15⟩]

/-- The diagonal quadruples (42_quarter_round.md R133). -/
def diagonalQuads : List Quad := [⟨0, 5, 10, 15⟩, ⟨1, 6, 11, 12⟩, ⟨2, 7, 8, 13⟩, ⟨3, 4, 9, 14⟩]

/-- COLUMN_PASS (42_quarter_round.md R132). -/
def columnPass (W : StateMatrix) : StateMatrix := columnQuads.foldl qrAt W

/-- DIAGONAL_PASS (42_quarter_round.md R133). -/
def diagonalPass (W : StateMatrix) : StateMatrix := diagonalQuads.foldl qrAt W

/-- DOUBLE_ROUND (42_quarter_round.md R135): the column pass comes first. -/
def doubleRound (W : StateMatrix) : StateMatrix := diagonalPass (columnPass W)

/-- ROUNDS (42_quarter_round.md R136): R / 2 double rounds. -/
def rounds (W : StateMatrix) (R : Byte) : StateMatrix := doubleRound^[R.toNat / 2] W

end Sys2Proof.Machine
end

