-- ==== Sys2Proof/Machine/BlockProducer.lean ====
section
/-! DEFINITION. The block producer and serializer (43_block_producer.md). -/

namespace Sys2Proof.Machine

/-- FEED_FORWARD (43_block_producer.md R151): the original state is added word by word. -/
def feedForward (W S : StateMatrix) : StateMatrix := Vector.zipWith add32 W S

/-- SERIALIZE (43_block_producer.md R152): KS[4i + k] is byte k of W[i]. -/
def serialize (W : StateMatrix) : Vector Byte 64 :=
  Vector.ofFn fun j => byteOf (W[j.val / 4]'(by omega)) (j.val % 4)

/-- The keystream block of state matrix S and round count R (43_block_producer.md R150, R154). -/
def keystreamBlock (S : StateMatrix) (R : Byte) : Vector Byte 64 := serialize (feedForward (rounds S R) S)

/-- KSBLOCK(key, nonce, c, R) (43_block_producer.md R154). -/
def ksBlock (key : Vector Byte 32) (nonce : Vector Byte 12) (c : Word) (R : Byte) : Vector Byte 64 :=
  keystreamBlock (initState key nonce c) R

/-- COUNTER_ADVANCE (43_block_producer.md R153): word 12 only, wrapping in silence. -/
def counterAdvance (s : State) : State := { s with S := s.S.set 12 (add32 s.S[12] 1) }

/-- BLOCK (43_block_producer.md R150): the block of the counter as it was on entry, and the counter advanced. -/
def block (s : State) : Vector Byte 64 × State := (keystreamBlock s.S s.R, counterAdvance s)

end Sys2Proof.Machine
end

