-- ==== Sys2Proof/Machine/Stream.lean ====
section
/-! DEFINITION. The XOR-stream processor (44_stream_processor.md). -/

namespace Sys2Proof.Machine

/-- XOR the bytes `ks` into the buffer from address `a` upward, in increasing order; an unwritten byte faults
(44_stream_processor.md R171, 20_memory.md R57). -/
def xorBytes (m : Memory) (a : Nat) : List Byte → Except Fault Memory
  | [] => .ok m
  | k :: ks =>
    match m.read a with
    | none => .error (.unwrittenRead a)
    | some b => xorBytes (m.write a (b ^^^ k)) (a + 1) ks

/-- XOR_WINDOW (44_stream_processor.md R171): the first n keystream bytes, n ≤ 64. -/
def xorWindow (a : Nat) (KS : Vector Byte 64) (n : Nat) (s : State) : Except Fault State :=
  match xorBytes s.BUF a (KS.toList.take n) with
  | .ok m => .ok { s with BUF := m }
  | .error f => .error f

/-- The loop of STREAM from offset `off` (44_stream_processor.md R170), for at most `fuel` blocks. -/
def streamFrom (base len : Nat) : Nat → Nat → State → Except Fault State
  | 0, _, s => .ok s
  | fuel + 1, off, s =>
    if off < len then
      match block s with
      | (KS, s) =>
        match xorWindow (base + off) KS (min 64 (len - off)) s with
        | .ok s => streamFrom base len fuel (off + min 64 (len - off)) s
        | .error f => .error f
    else .ok s

/-- STREAM (44_stream_processor.md R170). It produces ceil_div(len, 64) blocks (R172), so that many turns of the loop are
all there are. -/
def stream (base len : Nat) (s : State) : Except Fault State := streamFrom base len (ceilDiv64 len) 0 s

end Sys2Proof.Machine
end

