-- ==== Sys2Proof/Machine/Instance.lean ====
section
/-! DEFINITION. The meanings of the three commands (40_instance.md). -/

namespace Sys2Proof.Machine

/-- CONSTRUCT (40_instance.md R100): a failed one discards any earlier instance. -/
def execConstruct (klen nlen rc : Nat) (s : State) : Host.Outcome State Fault Refusal :=
  if legalParameters klen nlen rc then
    .next (succeed (setInstance (initState (keyOf s.KEY) (nonceOf s.NONCE) s.CTR_INIT) (BitVec.ofNat 8 rc) s))
  else .next (raiseErr .invalidParameter (clearInstance s))

/-- TRANSFORM (40_instance.md R101): NOT_CONSTRUCTED comes before BUFFER_RANGE (60_exceptions.md R203), and both before any
block is produced. -/
def execTransform (s : State) : Host.Outcome State Fault Refusal :=
  if !s.VALID then .next (raiseErr .notConstructed s)
  else if !windowInRange s then .next (raiseErr .bufferRange s)
  else
    match stream (windowBase s) (windowLen s) s with
    | .ok s => .next (succeed s)
    | .error f => .fault f

/-- DISCARD (40_instance.md R102). -/
def execDiscard (s : State) : Host.Outcome State Fault Refusal := .next (succeed (clearInstance s))

/-- A word that decodes as ILLEGAL (30_encoding.md R85): the error is reported and nothing else happens. -/
def illegalCommand (s : State) : Host.Outcome State Fault Refusal := .next (raiseErr .illegalCommand s)

end Sys2Proof.Machine
end

