-- ==== Sys2Proof/Machine/Dispatch.lean ====
section
/-! DEFINITION. The one dispatch from a decoded command to its meaning (40_instance.md R103). -/

namespace Sys2Proof.Machine

def exec (i : Instr) (s : State) : Host.Outcome State Fault Refusal :=
  match i with
  | .construct klen nlen rc => Sys2Proof.Machine.execConstruct klen nlen rc s
  | .transform => Sys2Proof.Machine.execTransform s
  | .discard => Sys2Proof.Machine.execDiscard s

end Sys2Proof.Machine
end

