-- ==== Sys2Proof/Machine/HostPort.lean ====
section
/-! DEFINITION. The host agent: its accesses (20_memory.md R51 to R56), its program and the pseudo-instructions
(30_encoding.md R89, R90). -/

namespace Sys2Proof.Machine

/-- HostRegWrite (20_memory.md R51, R54). -/
def hostRegWrite (width off : Nat) (v : Word) (s : State) : Host.Outcome State Fault Refusal :=
  match accessedReg width off with
  | none => .refused (.registerAccess width off)
  | some r => if s.BUSY then .fault .hostAccessWhileBusy else .next (record (.regW off v) (writeReg r v s))

/-- HostRegRead (20_memory.md R51, R55): STATUS may be read at any time. -/
def hostRegRead (width off : Nat) (s : State) : Host.Outcome State Fault Refusal :=
  match accessedReg width off with
  | none => .refused (.registerAccess width off)
  | some r =>
    if s.BUSY ∧ r ≠ .status then .fault .hostAccessWhileBusy else .next (record (.regR off (readReg r s)) s)

/-- HostBufWrite (20_memory.md R53). -/
def hostBufWrite (a : Nat) (v : Byte) (s : State) : Host.Outcome State Fault Refusal :=
  if a ≥ s.cfg.BUF_BYTES then .refused (.bufferAddress a)
  else if s.BUSY then .fault .hostAccessWhileBusy
  else .next (record (.bufW a v) { s with BUF := s.BUF.write a v })

/-- HostBufRead (20_memory.md R52). -/
def hostBufRead (a : Nat) (s : State) : Host.Outcome State Fault Refusal :=
  if a ≥ s.cfg.BUF_BYTES then .refused (.bufferAddress a)
  else if s.BUSY then .fault .hostAccessWhileBusy
  else
    match s.BUF.read a with
    | none => .fault (.unwrittenRead a)
    | some v => .next (record (.bufR a v) s)

/-- One host access. -/
def hostAccess (a : HostAccess) (s : State) : Host.Outcome State Fault Refusal :=
  match a with
  | .regWrite width off v => hostRegWrite width off v s
  | .regRead width off => hostRegRead width off s
  | .bufWrite a v => hostBufWrite a v s
  | .bufRead a => hostBufRead a s

/-- The host's turn: the next statement of its program. `poll` reads STATUS, and stays the next statement while BUSY = 1
(30_encoding.md R89). A host with no statement left does nothing. -/
def hostTurn (s : State) : Host.Outcome State Fault Refusal :=
  match s.program with
  | [] => .next s
  | .access a :: p => hostAccess a { s with program := p }
  | .poll :: p => hostRegRead 32 Reg.status.offset { s with program := if s.BUSY then .poll :: p else p }

/-- `wr NAME, v` (30_encoding.md R89). -/
def wr (r : Reg) (v : Word) : Stmt := .access (.regWrite 32 r.offset v)

/-- `rd NAME` (30_encoding.md R89). -/
def rd (r : Reg) : Stmt := .access (.regRead 32 r.offset)

/-- `wrb addr, v` (30_encoding.md R89). -/
def wrb (a : Nat) (v : Byte) : Stmt := .access (.bufWrite a v)

/-- `rdb addr` (30_encoding.md R89). -/
def rdb (a : Nat) : Stmt := .access (.bufRead a)

/-- `setkey k0, ..., k31` (30_encoding.md R90). -/
def setkey (k : Vector Byte 32) : List Stmt :=
  [wr (.key 0) (le32 k 0), wr (.key 1) (le32 k 4), wr (.key 2) (le32 k 8), wr (.key 3) (le32 k 12),
   wr (.key 4) (le32 k 16), wr (.key 5) (le32 k 20), wr (.key 6) (le32 k 24), wr (.key 7) (le32 k 28)]

/-- `setnonce n0, ..., n11` (30_encoding.md R90). -/
def setnonce (n : Vector Byte 12) : List Stmt :=
  [wr (.nonce 0) (le32 n 0), wr (.nonce 1) (le32 n 4), wr (.nonce 2) (le32 n 8)]

/-- `setctr c` (30_encoding.md R90). -/
def setctr (c : Word) : List Stmt := [wr .ctrInit c]

/-- `cmd v` (30_encoding.md R90). -/
def cmd (v : Word) : List Stmt := [wr .cmd v, .poll]

/-- `construct.raw klen=k, nlen=n, rounds=r` (30_encoding.md R90). -/
def constructRaw (k n r : Byte) : List Stmt :=
  cmd (zext32 r <<< 24 ||| zext32 n <<< 16 ||| zext32 k <<< 8 ||| 0x1)

/-- `construct rounds=r` (30_encoding.md R90). -/
def construct (r : Byte) : List Stmt := constructRaw 32 12 r

/-- `transform base, len` (30_encoding.md R90). -/
def transform (base len : Word) : List Stmt := [wr .bufBase base, wr .bufLen len, wr .cmd 0x00000002, .poll]

/-- `discard` (30_encoding.md R90). -/
def discard : List Stmt := cmd 0x00000003

/-- `wrbuf addr, b0, ..., b(n-1)` (30_encoding.md R90). -/
def wrbuf (a : Nat) : List Byte → List Stmt
  | [] => []
  | b :: bs => wrb a b :: wrbuf (a + 1) bs

/-- `rdbuf addr, n` (30_encoding.md R90). -/
def rdbuf (a : Nat) : Nat → List Stmt
  | 0 => []
  | n + 1 => rdb a :: rdbuf (a + 1) n

end Sys2Proof.Machine
end

