-- ==== Sys2Proof/Machine/Agents.lean ====
section
/-! DEFINITION. The core's step and the schedule: who moves, and what moving does (40_instance.md R103,
20_memory.md R68). -/

namespace Sys2Proof.Machine

/-- CoreStep (40_instance.md R103): decode PCMD and execute it in full. Every body ends in completion. -/
def coreStep (s : State) : Host.Outcome State Fault Refusal :=
  match decode s.PCMD with
  | .ok i => exec i s
  | .error _ => illegalCommand s

/-- The core's turn: its step is enabled exactly when BUSY = 1 (40_instance.md R103); otherwise the core is idle and keeps all
its state (60_exceptions.md R214). -/
def coreTurn (s : State) : Host.Outcome State Fault Refusal := if s.BUSY then coreStep s else .next s

/-- Who moves next: the head of the schedule; with an empty schedule the core while BUSY = 1, so that a pending command
completes (70_reset_and_hazards.md R260), and otherwise the host. Log entry 1. -/
def nextTurn (s : State) : Turn :=
  match s.turns with
  | t :: _ => t
  | [] => if s.BUSY then .core else .host

/-- The turn is taken from the schedule. -/
def takeTurn (s : State) : State := { s with turns := s.turns.tail }

/-- What one turn does (20_memory.md R68). -/
def turn (t : Turn) (s : State) : Host.Outcome State Fault Refusal :=
  match t with
  | .host => hostTurn s
  | .core => coreTurn s
  | .reset => .next (resetEvent s)

/-- The word `w` stands in PCMD as a write to CMD leaves it, and the core moves next. Log entry 9. -/
def placeCommand (w : Word) (s : State) : State := { latchCommand w s with turns := .core :: s.turns }

end Sys2Proof.Machine
end

