-- ==== Sys2Proof/Safety.lean ====
section
/-! DEFINITION. What a safe run is, the invariant of the machine, and the lifetime of an instance, in the terms the
statements use. -/

namespace Sys2Proof.Machine

/-- Every byte of the window of `len` bytes at `base` is written. -/
def windowWritten (base len : Nat) (m : Memory) : Prop := ∀ i, i < len → (m.read (base + i)).isSome

/-- The pending command ends in completion, not in a model fault: if it is a TRANSFORM that passes both its checks, every
byte of its window is written (40_instance.md R103, 20_memory.md R57). -/
def commandCompletes (s : State) : Prop :=
  decode s.PCMD = .ok .transform → s.VALID = true → windowInRange s = true →
    windowWritten (windowBase s) (windowLen s) s.BUF

/-- A host run has ended: the last statement is executed and BUSY = 0 (D29). That no model fault is recorded is that the run
is still in a next state. -/
def runEnded (s : State) : Prop := s.program = [] ∧ s.BUSY = false

/-- The four constant words stand in S[0..3] (10_state.md R20). -/
def constantsHeld (S : StateMatrix) : Prop :=
  S[0] = 0x61707865 ∧ S[1] = 0x3320646e ∧ S[2] = 0x79622d32 ∧ S[3] = 0x6b206574

/-- The state matrix of an instance built from these staging registers with its counter at `ctr` (10_state.md R20,
41_state_initializer.md R122). -/
def instanceWords (KEY : Vector Word 8) (ctr : Word) (NONCE : Vector Word 3) : StateMatrix :=
  #v[0x61707865, 0x3320646e, 0x79622d32, 0x6b206574, KEY[0], KEY[1], KEY[2], KEY[3], KEY[4], KEY[5], KEY[6], KEY[7],
     ctr, NONCE[0], NONCE[1], NONCE[2]]

/-- The invariant every step keeps: the buffer is in canonical form and inside BUF_BYTES; while VALID = 1 the constants stand
and the round count is legal (10_state.md R21); while VALID = 0, S and R are zero (R22, R32, R37). -/
structure StateInvariant (s : State) : Prop where
  bufCanonical : s.BUF.wf = true
  bufInRange : s.BUF.below s.cfg.BUF_BYTES = true
  whileValid : s.VALID = true → constantsHeld s.S ∧ s.R.toNat ∈ Config.legalRounds
  whileNotValid : s.VALID = false → s.S = Vector.replicate 16 0 ∧ s.R = 0

/-- The command the next step executes, if the core moves and has one to execute; an ILLEGAL word is none. -/
def runsCommand (s : State) : Option Instr :=
  if nextTurn s = .core ∧ s.BUSY = true then (decode s.PCMD).toOption else none

/-- The result code the pending command reports when it completes: the first error that holds, in the order of
60_exceptions.md R203, and OK when none does (R200). -/
def resultCode (s : State) : ErrCode :=
  match decode s.PCMD with
  | .error _ => .illegalCommand
  | .ok (.construct klen nlen rc) => if legalParameters klen nlen rc then .ok else .invalidParameter
  | .ok .transform => if s.VALID = false then .notConstructed else if windowInRange s then .ok else .bufferRange
  | .ok .discard => .ok

/-- The quarter rounds of one block in order, from the round count alone: R / 2 times the column and then the diagonal
quadruples (42_quarter_round.md R136, R138). -/
def roundSchedule (R : Nat) : List Quad := (List.replicate (R / 2) (columnQuads ++ diagonalQuads)).flatten

/-- The state after BLOCK has produced one block and advanced the counter (43_block_producer.md R150). -/
def afterBlock (s : State) : State := (block s).2

/-- The next step ends the lifetime of the instance: a reset, a CONSTRUCT (successful or not) or a DISCARD
(40_instance.md R106). -/
def endsLifetime (s : State) : Prop :=
  nextTurn s = .reset ∨ runsCommand s = some .discard ∨ ∃ klen nlen rc, runsCommand s = some (.construct klen nlen rc)

/-- The keystream blocks the next step produces: those of a TRANSFORM that passes both its checks
(44_stream_processor.md R172). -/
def blocksProduced (s : State) : Nat :=
  if runsCommand s = some .transform ∧ s.VALID = true ∧ windowInRange s = true then ceilDiv64 (windowLen s) else 0

/-- `Lifetime s n t`: steps lead from s to t, none of them ends the lifetime of the instance, and together they produce n
keystream blocks (10_state.md R21). -/
inductive Lifetime (s : State) : Nat → State → Prop where
  | refl : Lifetime s 0 s
  | step {n : Nat} {t u : State} (before : Lifetime s n t) (goesOn : ¬ endsLifetime t)
      (moves : Sys2Proof.Machine.step t = .next u) : Lifetime s (n + blocksProduced t) u

end Sys2Proof.Machine
end

