-- ==== Sys2Proof/Certificates/Slice0/Obligations.lean ====
section
/-! DEFINITION. The statements about the model. -/

open Sys2Proof Sys2Proof.Machine

/-! ## Primitives -/

/-- 00_scope.md R10: bit i of the rotation is bit (i - n) mod 32. -/
def Obligations.RotationMovesEveryBit : Prop :=
  ∀ (x : Word) (n : Nat), 0 < n → n < 32 →
    rotl32 x n = (x <<< n) ||| (x >>> (32 - n)) ∧
    ∀ i, i < 32 → (rotl32 x n).getLsbD i = x.getLsbD ((i + 32 - n) % 32)

/-- 00_scope.md R12: le32_bytes takes the four bytes, lowest first, and is the inverse of le32 on one word. -/
def Obligations.LittleEndianBytesInvertTheLoad : Prop :=
  (∀ (w : Word) (k : Nat) (h : k < 4), (le32Bytes w)[k] = w.extractLsb' (8 * k) 8) ∧
  (∀ w : Word, le32 (le32Bytes w) 0 = w) ∧
  (∀ b : Vector Byte 4, le32Bytes (le32 b 0) = b)

/-! ## Encoding -/

/-- 30_encoding.md R81 and 95_test_vectors.md 2.8: words written out and what they decode as. The spec says of the last four
only that they are ILLEGAL; the name each is rejected under is the model's choice (log entry 13). -/
def Obligations.WrittenOutWordsDecode : Prop :=
  decode 0x140C2001 = .ok (.construct 32 12 20) ∧ decode 0x0C0C2001 = .ok (.construct 32 12 12) ∧
  decode 0x080C2001 = .ok (.construct 32 12 8) ∧ decode 0x140C1F01 = .ok (.construct 31 12 20) ∧
  decode 0x00000002 = .ok .transform ∧ decode 0x00000003 = .ok .discard ∧
  decode 0x140C2011 = .error .rsvNotZero ∧ decode 0x80000002 = .error .mustBeZero ∧
  decode 0x140C2003 = .error .mustBeZero ∧ decode 0x00000000 = .error .reservedOp

/-- Decoding the encoding of a well-formed instruction gives it back, with every field at every value. -/
def Obligations.DecodeOfEncodeIsTheInstruction : Prop :=
  ∀ i : Instr, i.wellFormed = true → decode (encode i) = .ok i

/-- A word that decodes carries a well-formed instruction and is its encoding: no two words mean one instruction. -/
def Obligations.EncodeOfDecodeIsTheWord : Prop :=
  ∀ (v : Word) (i : Instr), decode v = .ok i → i.wellFormed = true ∧ encode i = v

/-- 30_encoding.md R84: the decode function, field by field, and the three rows of the opcode table. -/
def Obligations.DecodeFollowsTheFields : Prop :=
  ∀ v : Word,
    (v.extractLsb' 4 4 ≠ 0 → ∃ r, decode v = .error r) ∧
    (v.extractLsb' 4 4 = 0 → v.extractLsb' 0 4 = 1 →
      decode v = .ok (.construct (v.extractLsb' 8 8).toNat (v.extractLsb' 16 8).toNat (v.extractLsb' 24 8).toNat)) ∧
    (v.extractLsb' 4 4 = 0 → v.extractLsb' 0 4 = 2 →
      (v.extractLsb' 8 24 ≠ 0 → ∃ r, decode v = .error r) ∧ (v.extractLsb' 8 24 = 0 → decode v = .ok .transform)) ∧
    (v.extractLsb' 4 4 = 0 → v.extractLsb' 0 4 = 3 →
      (v.extractLsb' 8 24 ≠ 0 → ∃ r, decode v = .error r) ∧ (v.extractLsb' 8 24 = 0 → decode v = .ok .discard)) ∧
    (v.extractLsb' 0 4 ≠ 1 → v.extractLsb' 0 4 ≠ 2 → v.extractLsb' 0 4 ≠ 3 → ∃ r, decode v = .error r) ∧
    (v &&& 0x000000FF = 0x00000001 ↔ ∃ klen nlen rc, decode v = .ok (.construct klen nlen rc)) ∧
    (v &&& 0xFFFFFFFF = 0x00000002 ↔ decode v = .ok .transform) ∧
    (v &&& 0xFFFFFFFF = 0x00000003 ↔ decode v = .ok .discard)

/-- 30_encoding.md R85, R86: a reserved OP or a set must-be-zero bit has one effect, the error report. -/
def Obligations.IllegalWordsOnlyReportAnError : Prop :=
  ∀ s : State, s.BUSY = true →
    ((s.PCMD.extractLsb' 0 4 ≠ 1 ∧ s.PCMD.extractLsb' 0 4 ≠ 2 ∧ s.PCMD.extractLsb' 0 4 ≠ 3) ∨
      s.PCMD.extractLsb' 4 4 ≠ 0 ∨
      ((s.PCMD.extractLsb' 0 4 = 2 ∨ s.PCMD.extractLsb' 0 4 = 3) ∧ s.PCMD.extractLsb' 8 24 ≠ 0)) →
    coreTurn s = .next { s with ERR := .illegalCommand, BUSY := false }

/-! ## CONSTRUCT and the state initializer -/

/-- 41_state_initializer.md R120: the 16 words INIT_STATE returns. -/
def Obligations.InitStateHasItsLayout : Prop :=
  ∀ (key : Vector Byte 32) (nonce : Vector Byte 12) (ctr : Word),
    constantsHeld (initState key nonce ctr) ∧
    (∀ (j : Nat) (h : j < 8), (initState key nonce ctr)[4 + j] = le32 key (4 * j)) ∧
    (initState key nonce ctr)[12] = ctr ∧
    (∀ (j : Nat) (h : j < 3), (initState key nonce ctr)[13 + j] = le32 nonce (4 * j))

/-- 20_memory.md R59, 41_state_initializer.md R122: the staging registers hold the key and nonce little-endian, and
CONSTRUCT's words are the registers unchanged. -/
def Obligations.StagingRegistersReachTheStateUnchanged : Prop :=
  ∀ (KEY : Vector Word 8) (NONCE : Vector Word 3) (ctr : Word),
    (∀ (j k : Nat) (hj : j < 8) (hk : k < 4), (keyOf KEY)[4 * j + k] = KEY[j].extractLsb' (8 * k) 8) ∧
    (∀ (j k : Nat) (hj : j < 3) (hk : k < 4), (nonceOf NONCE)[4 * j + k] = NONCE[j].extractLsb' (8 * k) 8) ∧
    (∀ (j : Nat) (hj : j < 8), le32 (keyOf KEY) (4 * j) = KEY[j] ∧
      (initState (keyOf KEY) (nonceOf NONCE) ctr)[4 + j] = KEY[j]) ∧
    (∀ (j : Nat) (hj : j < 3), le32 (nonceOf NONCE) (4 * j) = NONCE[j] ∧
      (initState (keyOf KEY) (nonceOf NONCE) ctr)[13 + j] = NONCE[j]) ∧
    (initState (keyOf KEY) (nonceOf NONCE) ctr)[12] = ctr

/-- 40_instance.md R100: CONSTRUCT always completes. On legal parameters it builds the instance from the staging registers;
on any others it discards the instance and reports INVALID_PARAMETER. Nothing else changes. -/
def Obligations.ConstructBuildsOrDiscardsTheInstance : Prop :=
  ∀ (s : State) (klen nlen rc : Nat),
    (klen = 32 → nlen = 12 → (rc = 8 ∨ rc = 12 ∨ rc = 20) →
      exec (.construct klen nlen rc) s = .next { s with
        S := instanceWords s.KEY s.CTR_INIT s.NONCE, R := BitVec.ofNat 8 rc, VALID := true, ERR := .ok, BUSY := false }) ∧
    (¬ (klen = 32 ∧ nlen = 12 ∧ (rc = 8 ∨ rc = 12 ∨ rc = 20)) →
      exec (.construct klen nlen rc) s = .next { s with
        S := Vector.replicate 16 0, R := 0, VALID := false, ERR := .invalidParameter, BUSY := false })

/-! ## TRANSFORM -/

/-- 40_instance.md R101: the two checks in their order, and then the window is XORed byte by byte with the keystream of
consecutive counters, the counter advances by ceil_div(len, 64), and every byte outside the window stays. -/
def Obligations.TransformFollowsItsRule : Prop :=
  ∀ s : State,
    (s.VALID = false → exec .transform s = .next { s with ERR := .notConstructed, BUSY := false }) ∧
    (s.VALID = true → s.BUF_LEN.toNat ≠ 0 → s.BUF_BASE.toNat + s.BUF_LEN.toNat > s.cfg.BUF_BYTES →
      exec .transform s = .next { s with ERR := .bufferRange, BUSY := false }) ∧
    (s.VALID = true → (s.BUF_LEN.toNat = 0 ∨ s.BUF_BASE.toNat + s.BUF_LEN.toNat ≤ s.cfg.BUF_BYTES) →
      windowWritten s.BUF_BASE.toNat s.BUF_LEN.toNat s.BUF →
      ∃ m, exec .transform s = .next { s with
          BUF := m, S := s.S.set 12 (s.S[12] + BitVec.ofNat 32 ((s.BUF_LEN.toNat + 63) / 64)), ERR := .ok, BUSY := false } ∧
        (∀ i, i < s.BUF_LEN.toNat → ∀ b, s.BUF.read (s.BUF_BASE.toNat + i) = some b →
          m.read (s.BUF_BASE.toNat + i) = some (b ^^^
            (keystreamBlock (s.S.set 12 (s.S[12] + BitVec.ofNat 32 (i / 64))) s.R)[i % 64])) ∧
        (∀ a, a < s.BUF_BASE.toNat ∨ s.BUF_BASE.toNat + s.BUF_LEN.toNat ≤ a → m.read a = s.BUF.read a))

/-- 44_stream_processor.md R178: the closed form of one TRANSFORM of an instance with this key, nonce and counter. -/
def Obligations.TransformHasItsClosedForm : Prop :=
  ∀ (s t : State) (key : Vector Byte 32) (nonce : Vector Byte 12) (c : Word),
    s.VALID = true → s.S = initState key nonce c →
    (s.BUF_LEN.toNat = 0 ∨ s.BUF_BASE.toNat + s.BUF_LEN.toNat ≤ s.cfg.BUF_BYTES) →
    exec .transform s = .next t →
    (∀ i, i < s.BUF_LEN.toNat → ∃ b, s.BUF.read (s.BUF_BASE.toNat + i) = some b ∧
      t.BUF.read (s.BUF_BASE.toNat + i) = some (b ^^^ (ksBlock key nonce (c + BitVec.ofNat 32 (i / 64)) s.R)[i % 64])) ∧
    t.S = initState key nonce (c + BitVec.ofNat 32 ((s.BUF_LEN.toNat + 63) / 64)) ∧
    (∀ a, a < s.BUF_BASE.toNat ∨ s.BUF_BASE.toNat + s.BUF_LEN.toNat ≤ a → t.BUF.read a = s.BUF.read a) ∧
    t.R = s.R ∧ t.VALID = true

/-- 20_memory.md R57: a TRANSFORM that reaches an unwritten byte of its window faults at the first one. -/
def Obligations.TransformFaultsAtTheFirstUnwrittenByte : Prop :=
  ∀ (s : State) (i : Nat), s.VALID = true → s.BUF_BASE.toNat + s.BUF_LEN.toNat ≤ s.cfg.BUF_BYTES → i < s.BUF_LEN.toNat →
    (∀ j, j < i → (s.BUF.read (s.BUF_BASE.toNat + j)).isSome) → s.BUF.read (s.BUF_BASE.toNat + i) = none →
    exec .transform s = .fault (.unwrittenRead (s.BUF_BASE.toNat + i))

/-- 44_stream_processor.md R171: XOR_WINDOW XORs the first n keystream bytes in place, or faults at the first unwritten byte. -/
def Obligations.XorWindowXorsAPrefix : Prop :=
  ∀ (a : Nat) (KS : Vector Byte 64) (n : Nat) (s : State), 1 ≤ n → (hn : n ≤ 64) →
    ((∀ j, j < n → (s.BUF.read (a + j)).isSome) →
      ∃ m, xorWindow a KS n s = .ok { s with BUF := m } ∧
        (∀ (j : Nat) (hj : j < n) (b : Byte), s.BUF.read (a + j) = some b → m.read (a + j) = some (b ^^^ KS[j])) ∧
        (∀ x, x < a ∨ a + n ≤ x → m.read x = s.BUF.read x)) ∧
    (∀ i, i < n → (∀ j, j < i → (s.BUF.read (a + j)).isSome) → s.BUF.read (a + i) = none →
      xorWindow a KS n s = .error (.unwrittenRead (a + i)))

/-- 44_stream_processor.md R174: a window of length 0. -/
def Obligations.EmptyWindowIsANoOp : Prop :=
  ∀ s : State,
    (∀ base, stream base 0 s = .ok s) ∧
    (s.BUF_LEN = 0 → s.VALID = true → exec .transform s = .next { s with ERR := .ok, BUSY := false }) ∧
    (s.BUF_LEN = 0 → s.VALID = false → exec .transform s = .next { s with ERR := .notConstructed, BUSY := false })

/-- 44_stream_processor.md R175, first case: when the first of two adjacent windows is a multiple of 64 bytes long, two
TRANSFORMs of one instance leave what one TRANSFORM of the joined window leaves. -/
def Obligations.AlignedChunksEqualOneTransform : Prop :=
  ∀ (s : State) (lenA lenB : Nat), s.VALID = true → lenA % 64 = 0 →
    s.BUF_BASE.toNat + lenA < 2 ^ 32 → lenA + lenB < 2 ^ 32 → s.BUF_BASE.toNat + (lenA + lenB) ≤ s.cfg.BUF_BYTES →
    windowWritten s.BUF_BASE.toNat (lenA + lenB) s.BUF →
    ∃ t u v,
      exec .transform { s with BUF_LEN := BitVec.ofNat 32 lenA } = .next t ∧
      exec .transform { t with BUF_BASE := BitVec.ofNat 32 (s.BUF_BASE.toNat + lenA), BUF_LEN := BitVec.ofNat 32 lenB } = .next u ∧
      exec .transform { s with BUF_LEN := BitVec.ofNat 32 (lenA + lenB) } = .next v ∧
      u.BUF = v.BUF ∧ u.S = v.S ∧ u.R = v.R ∧ u.VALID = v.VALID ∧ u.ERR = v.ERR

/-- 44_stream_processor.md R173, R175, second case: whatever the first length, the second TRANSFORM begins at byte 0 of the
block after the last one produced; the discarded tail is never used. -/
def Obligations.NextTransformStartsANewBlock : Prop :=
  ∀ (s t u : State) (base len : Word), s.VALID = true →
    (s.BUF_LEN.toNat = 0 ∨ s.BUF_BASE.toNat + s.BUF_LEN.toNat ≤ s.cfg.BUF_BYTES) →
    base.toNat + len.toNat ≤ s.cfg.BUF_BYTES →
    exec .transform s = .next t → exec .transform { t with BUF_BASE := base, BUF_LEN := len } = .next u →
    ∀ i, i < len.toNat → ∃ b, t.BUF.read (base.toNat + i) = some b ∧
      u.BUF.read (base.toNat + i) = some (b ^^^
        (keystreamBlock (s.S.set 12 (s.S[12] + BitVec.ofNat 32 ((s.BUF_LEN.toNat + 63) / 64) + BitVec.ofNat 32 (i / 64)))
          s.R)[i % 64])

/-- 40_instance.md R104: CONSTRUCT and TRANSFORM, then the same CONSTRUCT and TRANSFORM again, give the buffer back. -/
def Obligations.TransformingTwiceGivesTheBufferBack : Prop :=
  ∀ (s : State) (rc : Nat), (rc = 8 ∨ rc = 12 ∨ rc = 20) →
    (s.BUF_LEN.toNat = 0 ∨ s.BUF_BASE.toNat + s.BUF_LEN.toNat ≤ s.cfg.BUF_BYTES) →
    windowWritten s.BUF_BASE.toNat s.BUF_LEN.toNat s.BUF →
    ∃ s1 s2 s3 s4,
      exec (.construct 32 12 rc) s = .next s1 ∧ exec .transform s1 = .next s2 ∧
      exec (.construct 32 12 rc) s2 = .next s3 ∧ exec .transform s3 = .next s4 ∧
      (∀ a, s4.BUF.read a = s.BUF.read a) ∧ (s.BUF.wf = true → s4.BUF = s.BUF)

/-- 40_instance.md R105: CONSTRUCT reads no state but the staging registers, TRANSFORM none but the instance, its window
registers and the buffer; and one instance transforms identical window bytes alike, wherever its two windows lie. -/
def Obligations.CommandsReadOnlyTheirOperands : Prop :=
  (∀ (s s' : State) (klen nlen rc : Nat), s.KEY = s'.KEY → s.NONCE = s'.NONCE → s.CTR_INIT = s'.CTR_INIT →
    ∃ t t', exec (.construct klen nlen rc) s = .next t ∧ exec (.construct klen nlen rc) s' = .next t' ∧
      t.S = t'.S ∧ t.R = t'.R ∧ t.VALID = t'.VALID ∧ t.ERR = t'.ERR) ∧
  (∀ s s' : State, s.cfg = s'.cfg → s.S = s'.S → s.R = s'.R → s.VALID = s'.VALID → s.BUF_BASE = s'.BUF_BASE →
    s.BUF_LEN = s'.BUF_LEN → s.BUF = s'.BUF →
    (∀ t, exec .transform s = .next t → ∃ t', exec .transform s' = .next t' ∧
      t.S = t'.S ∧ t.BUF = t'.BUF ∧ t.R = t'.R ∧ t.VALID = t'.VALID ∧ t.ERR = t'.ERR) ∧
    (∀ f, exec .transform s = .fault f → exec .transform s' = .fault f)) ∧
  (∀ s s' t t' : State, s.S = s'.S → s.R = s'.R → s.VALID = true → s'.VALID = true → s.BUF_LEN = s'.BUF_LEN →
    s.BUF_BASE.toNat + s.BUF_LEN.toNat ≤ s.cfg.BUF_BYTES → s'.BUF_BASE.toNat + s'.BUF_LEN.toNat ≤ s'.cfg.BUF_BYTES →
    (∀ i, i < s.BUF_LEN.toNat → s.BUF.read (s.BUF_BASE.toNat + i) = s'.BUF.read (s'.BUF_BASE.toNat + i)) →
    exec .transform s = .next t → exec .transform s' = .next t' →
    t.S = t'.S ∧ ∀ i, i < s.BUF_LEN.toNat → t.BUF.read (s.BUF_BASE.toNat + i) = t'.BUF.read (s'.BUF_BASE.toNat + i))

/-! ## DISCARD, results and frames -/

/-- 40_instance.md R102: DISCARD always completes and ends the instance; STATUS, COUNTER and ROUNDS then read 0. -/
def Obligations.DiscardEndsTheInstance : Prop :=
  ∀ s : State, ∃ t, exec .discard s = .next t ∧
    t = { s with S := Vector.replicate 16 0, R := 0, VALID := false, ERR := .ok, BUSY := false } ∧
    statusWord t = 0 ∧ readReg .counter t = 0 ∧ readReg .rounds t = 0 ∧
    exec .transform t = .next { t with ERR := .notConstructed }

/-- 40_instance.md R103: the pending command completes exactly when it is no TRANSFORM that would read an unwritten byte. -/
def Obligations.PendingCommandCompletes : Prop :=
  ∀ s : State, s.BUSY = true → (commandCompletes s ↔ ∃ t, coreTurn s = .next t ∧ t.BUSY = false)

/-- 60_exceptions.md R200: the code a completed command leaves in STATUS.ERR. -/
def Obligations.CompletedCommandReportsItsCode : Prop :=
  ∀ s t : State, s.BUSY = true → coreTurn s = .next t →
    t.ERR = resultCode s ∧
    (statusWord t).extractLsb' 4 4 =
      (match resultCode s with
        | .ok => 0
        | .invalidParameter => 1
        | .notConstructed => 2
        | .bufferRange => 3
        | .illegalCommand => 4)

/-- 60_exceptions.md R202: a command that completes with an error has changed nothing else, but for a failed CONSTRUCT, which
discards the instance. -/
def Obligations.ErrorsArePrecise : Prop :=
  ∀ s t : State, s.BUSY = true → coreTurn s = .next t → t.ERR ≠ .ok →
    ((∃ klen nlen rc, decode s.PCMD = .ok (.construct klen nlen rc)) →
      t = { s with S := Vector.replicate 16 0, R := 0, VALID := false, ERR := .invalidParameter, BUSY := false }) ∧
    ((¬ ∃ klen nlen rc, decode s.PCMD = .ok (.construct klen nlen rc)) → t = { s with ERR := t.ERR, BUSY := false })

/-- The frame of the three commands: the staging registers, PCMD and the host's fields (log entries 1, 2) stay; CONSTRUCT and DISCARD leave
every byte of the buffer; TRANSFORM leaves R, VALID, every word of S but the counter, and every byte outside the window it
computes from BUF_BASE and BUF_LEN. -/
def Obligations.CommandsLeaveTheRestUnchanged : Prop :=
  ∀ (i : Instr) (s t : State), exec i s = .next t →
    (t.cfg = s.cfg ∧ t.PCMD = s.PCMD ∧ t.KEY = s.KEY ∧ t.NONCE = s.NONCE ∧ t.CTR_INIT = s.CTR_INIT ∧
      t.BUF_BASE = s.BUF_BASE ∧ t.BUF_LEN = s.BUF_LEN ∧ t.program = s.program ∧ t.trace = s.trace ∧ t.turns = s.turns) ∧
    (i ≠ .transform → ∀ a, t.BUF.read a = s.BUF.read a) ∧
    (i = .transform → t.R = s.R ∧ t.VALID = s.VALID ∧ (∀ (j : Nat) (h : j < 16), j ≠ 12 → t.S[j] = s.S[j]) ∧
      ∀ a, a < windowBase s ∨ windowBase s + windowLen s ≤ a → t.BUF.read a = s.BUF.read a)

/-! ## The instance over time -/

/-- 10_state.md R37: the state right after reset, for every buffer size. -/
def Obligations.ResetStateHoldsItsValues : Prop :=
  ∀ c : Config,
    (∀ (i : Nat) (h : i < 16), (State.resetFor c).S[i] = 0) ∧ (State.resetFor c).R = 0 ∧ (State.resetFor c).VALID = false ∧
    (State.resetFor c).BUSY = false ∧ (State.resetFor c).ERR = .ok ∧ (State.resetFor c).PCMD = 0 ∧
    (∀ (j : Nat) (h : j < 8), (State.resetFor c).KEY[j] = 0) ∧ (∀ (j : Nat) (h : j < 3), (State.resetFor c).NONCE[j] = 0) ∧
    (State.resetFor c).CTR_INIT = 0 ∧ (State.resetFor c).BUF_BASE = 0 ∧ (State.resetFor c).BUF_LEN = 0 ∧
    (∀ a, (State.resetFor c).BUF.read a = none)

/-- 70_reset_and_hazards.md R230, R231: reset takes effect at any time, BUSY or not; a pending command is gone. That the
host's fields stay, and that the event takes one turn of the schedule, is the model's choice (log entries 7, 1). -/
def Obligations.ResetClearsTheCoreAtAnyTime : Prop :=
  ∀ s : State, nextTurn s = .reset → ∃ t, step s = .next t ∧
    t = { State.resetFor s.cfg with program := s.program, trace := s.trace, turns := s.turns.tail } ∧
    statusWord t = 0 ∧ readReg .counter t = 0 ∧ readReg .rounds t = 0 ∧
    (∀ off : Nat, off < 0x100 → off % 4 = 0 → ∃ r, accessedReg 32 off = some r ∧ readReg r t = 0) ∧
    (∀ a, t.BUF.read a = none) ∧ coreTurn t = .next t

/-- The invariant holds right after reset, for every buffer size. -/
def Obligations.ResetMeetsTheInvariant : Prop := (∀ c : Config, StateInvariant (State.resetFor c)) ∧ StateInvariant State.reset

/-- Every step keeps the invariant: canonical buffer inside BUF_BYTES, the constants and a legal round count while VALID = 1,
zeros while VALID = 0. -/
def Obligations.EveryStepKeepsTheInvariant : Prop := ∀ s t : State, StateInvariant s → step s = .next t → StateInvariant t

/-- 10_state.md R23: what moves the validity bit. -/
def Obligations.ValidityBitFollowsTheLastConstruct : Prop :=
  ∀ s t : State, step s = .next t →
    (nextTurn s = .reset → t.VALID = false) ∧
    (runsCommand s = some .discard → t.VALID = false) ∧
    (∀ klen nlen rc, runsCommand s = some (.construct klen nlen rc) →
      (t.VALID = true ↔ klen = 32 ∧ nlen = 12 ∧ (rc = 8 ∨ rc = 12 ∨ rc = 20))) ∧
    (¬ endsLifetime s → t.VALID = s.VALID) ∧
    (runsCommand s = some .transform → s.VALID = false → t.ERR = .notConstructed)

/-- 10_state.md R21: from a successful CONSTRUCT on, over any steps that do not end the lifetime, the constants, the key and
the nonce stand, the counter is the initial counter plus the number of blocks produced, and R stays. -/
def Obligations.InstanceKeepsItsInvariantsForLife : Prop :=
  ∀ (s0 s t : State) (rc n : Nat), (rc = 8 ∨ rc = 12 ∨ rc = 20) → exec (.construct 32 12 rc) s0 = .next s → Lifetime s n t →
    t.VALID = true ∧ t.R = BitVec.ofNat 8 rc ∧
    t.S = instanceWords s0.KEY (s0.CTR_INIT + BitVec.ofNat 32 n) s0.NONCE

/-! ## The quarter-round engine -/

/-- 42_quarter_round.md R131: the four words take the roles a, b, c, d; the other twelve are unchanged. -/
def Obligations.QuarterRoundAtTouchesFourWords : Prop :=
  ∀ (W : StateMatrix) (q : Quad), q.a ≠ q.b → q.a ≠ q.c → q.a ≠ q.d → q.b ≠ q.c → q.b ≠ q.d → q.c ≠ q.d →
    ((qrAt W q)[q.a], (qrAt W q)[q.b], (qrAt W q)[q.c], (qrAt W q)[q.d]) = qr W[q.a] W[q.b] W[q.c] W[q.d] ∧
    ∀ j : Fin 16, j ≠ q.a → j ≠ q.b → j ≠ q.c → j ≠ q.d → (qrAt W q)[j] = W[j]

/-- 42_quarter_round.md R137: lane L of each pass. -/
def Obligations.PassesActLaneByLane : Prop :=
  ∀ (W : StateMatrix) (L : Nat) (h : L < 4),
    ((columnPass W)[L], (columnPass W)[4 + L], (columnPass W)[8 + L], (columnPass W)[12 + L]) =
      qr W[L] W[4 + L] W[8 + L] W[12 + L] ∧
    ((diagonalPass W)[L], (diagonalPass W)[4 + (L + 1) % 4], (diagonalPass W)[8 + (L + 2) % 4],
      (diagonalPass W)[12 + (L + 3) % 4]) =
      qr W[L] W[4 + (L + 1) % 4] W[8 + (L + 2) % 4] W[12 + (L + 3) % 4]

/-- 42_quarter_round.md R134: any order of a pass's four quarter rounds gives the same result. -/
def Obligations.OrderWithinAPassDoesNotMatter : Prop :=
  ∀ (W : StateMatrix) (qs : List Quad),
    (qs.Perm columnQuads → qs.foldl qrAt W = columnPass W) ∧ (qs.Perm diagonalQuads → qs.foldl qrAt W = diagonalPass W)

/-- 42_quarter_round.md R136: ROUNDS is R / 2 double rounds, 4 R quarter rounds in all, and zero is a fixed point. R136 speaks
of R = 8, 12, 20 only; that R / 2 is rounded down for any other R is the model's (log entry 16). -/
def Obligations.RoundsRunFourQuarterRoundsPerRound : Prop :=
  ∀ (W : StateMatrix) (R : Byte),
    rounds W R = (roundSchedule R.toNat).foldl qrAt W ∧
    (R.toNat = 8 ∨ R.toNat = 12 ∨ R.toNat = 20 → (roundSchedule R.toNat).length = 4 * R.toNat) ∧
    rounds (Vector.replicate 16 0) R = Vector.replicate 16 0

/-- 42_quarter_round.md R139: QR, the passes and ROUNDS are bijections. -/
def Obligations.MixingIsBijective : Prop :=
  Function.Bijective (fun x : Word × Word × Word × Word => qr x.1 x.2.1 x.2.2.1 x.2.2.2) ∧
  Function.Bijective columnPass ∧ Function.Bijective diagonalPass ∧ ∀ R : Byte, Function.Bijective fun W => rounds W R

/-! ## The block producer -/

/-- 43_block_producer.md R151, R152: the feed-forward word by word, and the little-endian serialization, word 0 first. -/
def Obligations.FeedForwardThenSerialize : Prop :=
  (∀ (W S : StateMatrix) (i : Nat) (h : i < 16), (feedForward W S)[i] = W[i] + S[i]) ∧
  (∀ (W : StateMatrix) (i k : Nat) (hi : i < 16) (hk : k < 4), (serialize W)[4 * i + k] = W[i].extractLsb' (8 * k) 8) ∧
  (∀ W : StateMatrix, (serialize W).toList = W.toList.flatMap fun w => (le32Bytes w).toList)

/-- 43_block_producer.md R150, R153: BLOCK answers the block of the counter on entry and advances word 12 only, which wraps
in silence. -/
def Obligations.BlockAdvancesTheCounter : Prop :=
  ∀ s : State,
    (block s).1 = serialize (feedForward (rounds s.S s.R) s.S) ∧
    (block s).2 = { s with S := s.S.set 12 (s.S[12] + 1) } ∧
    (∀ (j : Nat) (h : j < 16), j ≠ 12 → (block s).2.S[j] = s.S[j]) ∧
    (s.S[12] = 0xFFFFFFFF → (block s).2.S[12] = 0)

/-- 43_block_producer.md R154: the n-th block an instance produces. -/
def Obligations.NthBlockHasItsClosedForm : Prop :=
  ∀ (s : State) (key : Vector Byte 32) (nonce : Vector Byte 12) (c0 : Word) (n : Nat), s.S = initState key nonce c0 →
    (block (afterBlock^[n] s)).1 = ksBlock key nonce (c0 + BitVec.ofNat 32 n) s.R

/-- 43_block_producer.md R155: after 2^32 blocks the counter is back and the keystream repeats. -/
def Obligations.KeystreamRepeatsAfterTheCounterWraps : Prop :=
  ∀ (s : State) (n p : Nat), p % 2 ^ 32 = 0 → afterBlock^[p] s = s ∧
    (block (afterBlock^[n + p] s)).1 = (block (afterBlock^[n] s)).1

/-! ## The host port -/

/-- 20_memory.md R51: exactly the aligned 32-bit accesses below 0x100 are admitted; any other is refused. -/
def Obligations.OtherRegisterAccessesAreRefused : Prop :=
  ∀ width off : Nat,
    (accessedReg width off = none ↔ ¬ (width = 32 ∧ off % 4 = 0 ∧ off < 0x100)) ∧
    (¬ (width = 32 ∧ off % 4 = 0 ∧ off < 0x100) → ∀ (s : State) (v : Word),
      hostAccess (.regWrite width off v) s = .refused (.registerAccess width off) ∧
      hostAccess (.regRead width off) s = .refused (.registerAccess width off))

/-- 10_state.md R36: the register map is a bijection between the registers and the 64 slots. -/
def Obligations.RegisterMapIsABijection : Prop :=
  (∀ r : Reg, accessedReg 32 r.offset = some r ∧ r.offset % 4 = 0 ∧ r.offset < 0x100) ∧
  (∀ (width off : Nat) (r : Reg), accessedReg width off = some r → r.offset = off) ∧
  (∀ off : Nat, off % 4 = 0 → off < 0x100 → ∃ r, accessedReg 32 off = some r)

/-- 20_memory.md R54: every admitted register write, by offset. That the transaction stands in State's trace is the model's
choice (log entry 2). -/
def Obligations.RegisterWritesFollowTheMap : Prop :=
  ∀ (s : State) (v : Word),
    (∀ off, off % 4 = 0 → off < 0x100 → s.BUSY = true → hostAccess (.regWrite 32 off v) s = .fault .hostAccessWhileBusy) ∧
    (s.BUSY = false →
      (∀ (j : Nat) (h : j < 8), hostAccess (.regWrite 32 (4 * j) v) s =
        .next { s with KEY := s.KEY.set j v, trace := s.trace ++ [.regW (4 * j) v] }) ∧
      (∀ (j : Nat) (h : j < 3), hostAccess (.regWrite 32 (0x20 + 4 * j) v) s =
        .next { s with NONCE := s.NONCE.set j v, trace := s.trace ++ [.regW (0x20 + 4 * j) v] }) ∧
      hostAccess (.regWrite 32 0x2C v) s = .next { s with CTR_INIT := v, trace := s.trace ++ [.regW 0x2C v] } ∧
      hostAccess (.regWrite 32 0x30 v) s = .next { s with BUF_BASE := v, trace := s.trace ++ [.regW 0x30 v] } ∧
      hostAccess (.regWrite 32 0x34 v) s = .next { s with BUF_LEN := v, trace := s.trace ++ [.regW 0x34 v] } ∧
      hostAccess (.regWrite 32 0x38 v) s =
        .next { s with PCMD := v, BUSY := true, trace := s.trace ++ [.regW 0x38 v] } ∧
      (∀ off, off % 4 = 0 → 0x3C ≤ off → off < 0x100 →
        hostAccess (.regWrite 32 off v) s = .next { s with trace := s.trace ++ [.regW off v] }))

/-- 20_memory.md R55: every admitted register read, by offset; the value it returns stands in the host's trace (the model's
choice, log entry 2), and a read changes nothing else. -/
def Obligations.RegisterReadsFollowTheMap : Prop :=
  ∀ s : State,
    hostAccess (.regRead 32 0x3C) s = .next { s with trace := s.trace ++ [.regR 0x3C (statusWord s)] } ∧
    (∀ off, off % 4 = 0 → off < 0x100 → off ≠ 0x3C → s.BUSY = true →
      hostAccess (.regRead 32 off) s = .fault .hostAccessWhileBusy) ∧
    (s.BUSY = false →
      (∀ (j : Nat) (h : j < 8), hostAccess (.regRead 32 (4 * j)) s =
        .next { s with trace := s.trace ++ [.regR (4 * j) s.KEY[j]] }) ∧
      (∀ (j : Nat) (h : j < 3), hostAccess (.regRead 32 (0x20 + 4 * j)) s =
        .next { s with trace := s.trace ++ [.regR (0x20 + 4 * j) s.NONCE[j]] }) ∧
      hostAccess (.regRead 32 0x2C) s = .next { s with trace := s.trace ++ [.regR 0x2C s.CTR_INIT] } ∧
      hostAccess (.regRead 32 0x30) s = .next { s with trace := s.trace ++ [.regR 0x30 s.BUF_BASE] } ∧
      hostAccess (.regRead 32 0x34) s = .next { s with trace := s.trace ++ [.regR 0x34 s.BUF_LEN] } ∧
      hostAccess (.regRead 32 0x38) s = .next { s with trace := s.trace ++ [.regR 0x38 0] } ∧
      hostAccess (.regRead 32 0x40) s = .next { s with trace := s.trace ++ [.regR 0x40 s.S[12]] } ∧
      hostAccess (.regRead 32 0x44) s = .next { s with trace := s.trace ++ [.regR 0x44 (s.R.setWidth 32)] } ∧
      (∀ off, off % 4 = 0 → 0x48 ≤ off → off < 0x100 →
        hostAccess (.regRead 32 off) s = .next { s with trace := s.trace ++ [.regR off 0] }))

/-- 10_state.md R31: the layout of STATUS; the reserved bits read as 0. -/
def Obligations.StatusHasItsLayout : Prop :=
  ∀ s : State,
    (statusWord s).getLsbD 0 = s.BUSY ∧ (statusWord s).getLsbD 1 = s.VALID ∧
    (statusWord s).extractLsb' 4 4 = errBits s.ERR ∧ (statusWord s).extractLsb' 2 2 = 0 ∧
    (statusWord s).extractLsb' 8 24 = 0 ∧ (errBits s.ERR).toNat ≤ 4

/-- 10_state.md R26 to R29: a read of a read/write register returns the last value written, and every other register, its
status included, reads as before. The value read stands in the host's trace (the model's choice, log entry 2). -/
def Obligations.StagingRegistersReadBack : Prop :=
  ∀ (s : State) (r : Reg) (v : Word),
    (∃ j, r = .key j) ∨ (∃ j, r = .nonce j) ∨ r = .ctrInit ∨ r = .bufBase ∨ r = .bufLen → s.BUSY = false →
    ∃ t, hostAccess (.regWrite 32 r.offset v) s = .next t ∧
      hostAccess (.regRead 32 r.offset) t = .next (record (.regR r.offset v) t) ∧
      ∀ r', r' ≠ r → readReg r' t = readReg r' s

/-- 20_memory.md R52, R53: host reads and writes of one buffer byte. The value read stands in the host's trace (the model's
choice, log entry 2). -/
def Obligations.BufferAccessesFollowTheirRules : Prop :=
  ∀ (s : State) (a : Nat) (v : Byte),
    (a ≥ s.cfg.BUF_BYTES → hostAccess (.bufRead a) s = .refused (.bufferAddress a) ∧
      hostAccess (.bufWrite a v) s = .refused (.bufferAddress a)) ∧
    (a < s.cfg.BUF_BYTES → s.BUSY = true → hostAccess (.bufRead a) s = .fault .hostAccessWhileBusy ∧
      hostAccess (.bufWrite a v) s = .fault .hostAccessWhileBusy) ∧
    (a < s.cfg.BUF_BYTES → s.BUSY = false → s.BUF.read a = none → hostAccess (.bufRead a) s = .fault (.unwrittenRead a)) ∧
    (a < s.cfg.BUF_BYTES → s.BUSY = false → s.BUF.read a = some v →
      hostAccess (.bufRead a) s = .next { s with trace := s.trace ++ [.bufR a v] }) ∧
    (a < s.cfg.BUF_BYTES → s.BUSY = false → ∃ m,
      hostAccess (.bufWrite a v) s = .next { s with BUF := m, trace := s.trace ++ [.bufW a v] } ∧
      m.read a = some v ∧ ∀ x, x ≠ a → m.read x = s.BUF.read x)

/-- 70_reset_and_hazards.md R240: while BUSY = 1 the one access that is no fault is a STATUS read. The value
read stands in the host's trace (log entry 2). -/
def Obligations.AccessWhileBusyFaults : Prop :=
  ∀ s : State, s.BUSY = true →
    hostAccess (.regRead 32 0x3C) s = .next { s with trace := s.trace ++ [.regR 0x3C (statusWord s)] } ∧
    (∀ off v, off % 4 = 0 → off < 0x100 → hostAccess (.regWrite 32 off v) s = .fault .hostAccessWhileBusy) ∧
    (∀ off, off % 4 = 0 → off < 0x100 → off ≠ 0x3C → hostAccess (.regRead 32 off) s = .fault .hostAccessWhileBusy) ∧
    (∀ a v, a < s.cfg.BUF_BYTES → hostAccess (.bufWrite a v) s = .fault .hostAccessWhileBusy) ∧
    (∀ a, a < s.cfg.BUF_BYTES → hostAccess (.bufRead a) s = .fault .hostAccessWhileBusy)

/-- 10_state.md R39, 20_memory.md R65: no host access touches the instance or the result code; a read changes nothing but
the host's trace; a register write changes no byte of the buffer, a buffer write no register and no other
byte. That each access adds one transaction to the trace in State is the model's choice (log entry 2). -/
def Obligations.HostAccessesLeaveTheRestUnchanged : Prop :=
  ∀ (a : HostAccess) (s t : State), hostAccess a s = .next t →
    (t.cfg = s.cfg ∧ t.S = s.S ∧ t.R = s.R ∧ t.VALID = s.VALID ∧ t.ERR = s.ERR ∧ t.program = s.program ∧
      t.turns = s.turns) ∧
    (∃ x, t.trace = s.trace ++ [x]) ∧
    (∀ width off, a = .regRead width off → t = { s with trace := t.trace }) ∧
    (∀ x, a = .bufRead x → t = { s with trace := t.trace }) ∧
    (∀ width off v, a = .regWrite width off v → ∀ x, t.BUF.read x = s.BUF.read x) ∧
    (∀ x v, a = .bufWrite x v → t = { s with BUF := t.BUF, trace := t.trace } ∧
      ∀ y, y ≠ x → t.BUF.read y = s.BUF.read y)

/-- 10_state.md R20, R38: no host access can tell two states apart that differ in S outside word 12: it answers alike, with
the same trace, and leaves the two states differing in S alone. What an access observes is the transaction it adds to the
trace (the model's choice, log entry 2). The staging registers KEY and NONCE do read back and are no part of this. -/
def Obligations.HostAccessesSeeOnlyTheCounterOfTheMatrix : Prop :=
  ∀ (a : HostAccess) (s : State) (S' : StateMatrix), S'[12] = s.S[12] →
    (∀ t, hostAccess a s = .next t → hostAccess a { s with S := S' } = .next { t with S := S' }) ∧
    (∀ f, hostAccess a s = .fault f → hostAccess a { s with S := S' } = .fault f) ∧
    (∀ r, hostAccess a s = .refused r → hostAccess a { s with S := S' } = .refused r)

/-- 30_encoding.md R90: eight steps of a host whose program begins with setkey load the key into the staging registers. That
the host moves when the schedule is empty, and the eight transactions in the trace, are the model's choice (log entries 1, 2). -/
def Obligations.SetkeyLoadsTheKey : Prop :=
  ∀ (s : State) (key : Vector Byte 32) (p : List Stmt), s.BUSY = false → s.turns = [] → s.program = setkey key ++ p →
    ∃ t, Host.Core.run Sys2Proof.core 8 s = .next t ∧ keyOf t.KEY = key ∧
      t = { s with KEY := t.KEY, program := p, trace := t.trace } ∧ t.trace.length = s.trace.length + 8

/-! ## Steps -/

/-- 40_instance.md R103: the core's step is enabled exactly when BUSY = 1 and executes the decoded command in full; around
exec a step only takes the turn from the schedule (log entry 1). A command placed in PCMD is the next step's (log entry 9). -/
def Obligations.StepRunsTheDecodedCommand : Prop :=
  (∀ (s : State) (i : Instr), nextTurn s = .core → s.BUSY = true → decode s.PCMD = .ok i →
    step s = exec i { s with turns := s.turns.tail }) ∧
  (∀ (s : State) (r : Reject), nextTurn s = .core → s.BUSY = true → decode s.PCMD = .error r →
    step s = .next { s with turns := s.turns.tail, ERR := .illegalCommand, BUSY := false }) ∧
  (∀ s : State, nextTurn s = .core → s.BUSY = false → step s = .next { s with turns := s.turns.tail }) ∧
  (∀ (s : State) (w : Word) (i : Instr), decode w = .ok i →
    step (s.withFetchWord 32 w.toNat) = exec i { s with PCMD := w, BUSY := true })

/-- 30_encoding.md R89: the host's step is its next statement; poll stays while BUSY = 1 (log entries 1, 2, 14). -/
def Obligations.StepRunsTheHostStatement : Prop :=
  ∀ s : State, nextTurn s = .host →
    (s.program = [] → step s = .next { s with turns := s.turns.tail }) ∧
    (∀ a p, s.program = .access a :: p → step s = hostAccess a { s with program := p, turns := s.turns.tail }) ∧
    (∀ p, s.program = .poll :: p → s.BUSY = true → step s = .next { s with
      turns := s.turns.tail, trace := s.trace ++ [.regR 0x3C (statusWord s)] }) ∧
    (∀ p, s.program = .poll :: p → s.BUSY = false → step s = .next { s with
      program := p, turns := s.turns.tail, trace := s.trace ++ [.regR 0x3C (statusWord s)] })

/-- 60_exceptions.md R214: with BUSY = 0 the core keeps all its state until the next host access or reset. That a host with no
statement left makes no access, and that such a step takes a turn from the schedule, is log entries 1 and 11. -/
def Obligations.IdleCoreKeepsItsState : Prop :=
  ∀ s : State, s.BUSY = false → nextTurn s ≠ .reset → (nextTurn s = .core ∨ s.program = []) →
    step s = .next { s with turns := s.turns.tail }

/-- 60_exceptions.md R201: completion and reset are the only ways BUSY returns to 0; the core's step is completion, and every
command writes ERR, whatever it held. -/
def Obligations.BusyFallsOnlyByCompletionOrReset : Prop :=
  ∀ s t : State, s.BUSY = true → step s = .next t →
    (t.BUSY = false ↔ nextTurn s = .core ∨ nextTurn s = .reset) ∧
    (nextTurn s = .core → t.ERR = resultCode s)

/-- 10_state.md R30: BUSY rises only by a write to CMD, which latches the word it writes. That the step takes one turn of the
schedule, takes the statement from the program and adds the transaction to the trace is the model's choice (log entries 1, 2). -/
def Obligations.BusyRisesOnlyByACommandWrite : Prop :=
  ∀ s t : State, s.BUSY = false → step s = .next t → t.BUSY = true →
    nextTurn s = .host ∧ ∃ v p, s.program = .access (.regWrite 32 0x38 v) :: p ∧
      t = { s with PCMD := v, BUSY := true, program := p, turns := s.turns.tail, trace := s.trace ++ [.regW 0x38 v] }

/-- 70_reset_and_hazards.md R260: a poll loop ends. However many turns the host is given first, its reads show the previous
STATUS with BUSY set; then the pending command completes and the next read ends the loop. That the core moves when the
schedule is empty, that one step of poll is one read, and the trace are log entries 1, 14 and 2. -/
def Obligations.PollLoopEnds : Prop :=
  ∀ (n : Nat) (s : State) (p : List Stmt), s.turns = List.replicate n .host → s.program = .poll :: p → s.BUSY = true →
    commandCompletes s →
    ∃ t, Host.Core.run Sys2Proof.core (n + 2) s = .next t ∧ t.BUSY = false ∧ t.program = p ∧ t.turns = [] ∧
      t.trace = s.trace ++ List.replicate n (.regR 0x3C (statusWord s)) ++ [.regR 0x3C (statusWord t)]
end

