-- ==== Sys2Proof/Laws/State.lean ====
section
/-! SUPPORT. The fields of State after each named update: one lemma per field and update, each by rfl. -/

namespace Sys2Proof.Machine

@[simp] theorem complete_cfg (s : State) : (complete s).cfg = s.cfg := rfl
@[simp] theorem complete_S (s : State) : (complete s).S = s.S := rfl
@[simp] theorem complete_R (s : State) : (complete s).R = s.R := rfl
@[simp] theorem complete_VALID (s : State) : (complete s).VALID = s.VALID := rfl
@[simp] theorem complete_BUSY (s : State) : (complete s).BUSY = false := rfl
@[simp] theorem complete_ERR (s : State) : (complete s).ERR = s.ERR := rfl
@[simp] theorem complete_PCMD (s : State) : (complete s).PCMD = s.PCMD := rfl
@[simp] theorem complete_KEY (s : State) : (complete s).KEY = s.KEY := rfl
@[simp] theorem complete_NONCE (s : State) : (complete s).NONCE = s.NONCE := rfl
@[simp] theorem complete_CTR_INIT (s : State) : (complete s).CTR_INIT = s.CTR_INIT := rfl
@[simp] theorem complete_BUF_BASE (s : State) : (complete s).BUF_BASE = s.BUF_BASE := rfl
@[simp] theorem complete_BUF_LEN (s : State) : (complete s).BUF_LEN = s.BUF_LEN := rfl
@[simp] theorem complete_BUF (s : State) : (complete s).BUF = s.BUF := rfl
@[simp] theorem complete_program (s : State) : (complete s).program = s.program := rfl
@[simp] theorem complete_trace (s : State) : (complete s).trace = s.trace := rfl
@[simp] theorem complete_turns (s : State) : (complete s).turns = s.turns := rfl

@[simp] theorem raiseErr_cfg (code : ErrCode) (s : State) : (raiseErr code s).cfg = s.cfg := rfl
@[simp] theorem raiseErr_S (code : ErrCode) (s : State) : (raiseErr code s).S = s.S := rfl
@[simp] theorem raiseErr_R (code : ErrCode) (s : State) : (raiseErr code s).R = s.R := rfl
@[simp] theorem raiseErr_VALID (code : ErrCode) (s : State) : (raiseErr code s).VALID = s.VALID := rfl
@[simp] theorem raiseErr_BUSY (code : ErrCode) (s : State) : (raiseErr code s).BUSY = false := rfl
@[simp] theorem raiseErr_ERR (code : ErrCode) (s : State) : (raiseErr code s).ERR = code := rfl
@[simp] theorem raiseErr_PCMD (code : ErrCode) (s : State) : (raiseErr code s).PCMD = s.PCMD := rfl
@[simp] theorem raiseErr_KEY (code : ErrCode) (s : State) : (raiseErr code s).KEY = s.KEY := rfl
@[simp] theorem raiseErr_NONCE (code : ErrCode) (s : State) : (raiseErr code s).NONCE = s.NONCE := rfl
@[simp] theorem raiseErr_CTR_INIT (code : ErrCode) (s : State) : (raiseErr code s).CTR_INIT = s.CTR_INIT := rfl
@[simp] theorem raiseErr_BUF_BASE (code : ErrCode) (s : State) : (raiseErr code s).BUF_BASE = s.BUF_BASE := rfl
@[simp] theorem raiseErr_BUF_LEN (code : ErrCode) (s : State) : (raiseErr code s).BUF_LEN = s.BUF_LEN := rfl
@[simp] theorem raiseErr_BUF (code : ErrCode) (s : State) : (raiseErr code s).BUF = s.BUF := rfl
@[simp] theorem raiseErr_program (code : ErrCode) (s : State) : (raiseErr code s).program = s.program := rfl
@[simp] theorem raiseErr_trace (code : ErrCode) (s : State) : (raiseErr code s).trace = s.trace := rfl
@[simp] theorem raiseErr_turns (code : ErrCode) (s : State) : (raiseErr code s).turns = s.turns := rfl

@[simp] theorem succeed_cfg (s : State) : (succeed s).cfg = s.cfg := rfl
@[simp] theorem succeed_S (s : State) : (succeed s).S = s.S := rfl
@[simp] theorem succeed_R (s : State) : (succeed s).R = s.R := rfl
@[simp] theorem succeed_VALID (s : State) : (succeed s).VALID = s.VALID := rfl
@[simp] theorem succeed_BUSY (s : State) : (succeed s).BUSY = false := rfl
@[simp] theorem succeed_ERR (s : State) : (succeed s).ERR = .ok := rfl
@[simp] theorem succeed_PCMD (s : State) : (succeed s).PCMD = s.PCMD := rfl
@[simp] theorem succeed_KEY (s : State) : (succeed s).KEY = s.KEY := rfl
@[simp] theorem succeed_NONCE (s : State) : (succeed s).NONCE = s.NONCE := rfl
@[simp] theorem succeed_CTR_INIT (s : State) : (succeed s).CTR_INIT = s.CTR_INIT := rfl
@[simp] theorem succeed_BUF_BASE (s : State) : (succeed s).BUF_BASE = s.BUF_BASE := rfl
@[simp] theorem succeed_BUF_LEN (s : State) : (succeed s).BUF_LEN = s.BUF_LEN := rfl
@[simp] theorem succeed_BUF (s : State) : (succeed s).BUF = s.BUF := rfl
@[simp] theorem succeed_program (s : State) : (succeed s).program = s.program := rfl
@[simp] theorem succeed_trace (s : State) : (succeed s).trace = s.trace := rfl
@[simp] theorem succeed_turns (s : State) : (succeed s).turns = s.turns := rfl

@[simp] theorem setInstance_cfg (S : StateMatrix) (R : Byte) (s : State) : (setInstance S R s).cfg = s.cfg := rfl
@[simp] theorem setInstance_S (S : StateMatrix) (R : Byte) (s : State) : (setInstance S R s).S = S := rfl
@[simp] theorem setInstance_R (S : StateMatrix) (R : Byte) (s : State) : (setInstance S R s).R = R := rfl
@[simp] theorem setInstance_VALID (S : StateMatrix) (R : Byte) (s : State) : (setInstance S R s).VALID = true := rfl
@[simp] theorem setInstance_BUSY (S : StateMatrix) (R : Byte) (s : State) : (setInstance S R s).BUSY = s.BUSY := rfl
@[simp] theorem setInstance_ERR (S : StateMatrix) (R : Byte) (s : State) : (setInstance S R s).ERR = s.ERR := rfl
@[simp] theorem setInstance_PCMD (S : StateMatrix) (R : Byte) (s : State) : (setInstance S R s).PCMD = s.PCMD := rfl
@[simp] theorem setInstance_KEY (S : StateMatrix) (R : Byte) (s : State) : (setInstance S R s).KEY = s.KEY := rfl
@[simp] theorem setInstance_NONCE (S : StateMatrix) (R : Byte) (s : State) : (setInstance S R s).NONCE = s.NONCE := rfl
@[simp] theorem setInstance_CTR_INIT (S : StateMatrix) (R : Byte) (s : State) : (setInstance S R s).CTR_INIT = s.CTR_INIT := rfl
@[simp] theorem setInstance_BUF_BASE (S : StateMatrix) (R : Byte) (s : State) : (setInstance S R s).BUF_BASE = s.BUF_BASE := rfl
@[simp] theorem setInstance_BUF_LEN (S : StateMatrix) (R : Byte) (s : State) : (setInstance S R s).BUF_LEN = s.BUF_LEN := rfl
@[simp] theorem setInstance_BUF (S : StateMatrix) (R : Byte) (s : State) : (setInstance S R s).BUF = s.BUF := rfl
@[simp] theorem setInstance_program (S : StateMatrix) (R : Byte) (s : State) : (setInstance S R s).program = s.program := rfl
@[simp] theorem setInstance_trace (S : StateMatrix) (R : Byte) (s : State) : (setInstance S R s).trace = s.trace := rfl
@[simp] theorem setInstance_turns (S : StateMatrix) (R : Byte) (s : State) : (setInstance S R s).turns = s.turns := rfl

@[simp] theorem clearInstance_cfg (s : State) : (clearInstance s).cfg = s.cfg := rfl
@[simp] theorem clearInstance_S (s : State) : (clearInstance s).S = Vector.replicate 16 0 := rfl
@[simp] theorem clearInstance_R (s : State) : (clearInstance s).R = 0 := rfl
@[simp] theorem clearInstance_VALID (s : State) : (clearInstance s).VALID = false := rfl
@[simp] theorem clearInstance_BUSY (s : State) : (clearInstance s).BUSY = s.BUSY := rfl
@[simp] theorem clearInstance_ERR (s : State) : (clearInstance s).ERR = s.ERR := rfl
@[simp] theorem clearInstance_PCMD (s : State) : (clearInstance s).PCMD = s.PCMD := rfl
@[simp] theorem clearInstance_KEY (s : State) : (clearInstance s).KEY = s.KEY := rfl
@[simp] theorem clearInstance_NONCE (s : State) : (clearInstance s).NONCE = s.NONCE := rfl
@[simp] theorem clearInstance_CTR_INIT (s : State) : (clearInstance s).CTR_INIT = s.CTR_INIT := rfl
@[simp] theorem clearInstance_BUF_BASE (s : State) : (clearInstance s).BUF_BASE = s.BUF_BASE := rfl
@[simp] theorem clearInstance_BUF_LEN (s : State) : (clearInstance s).BUF_LEN = s.BUF_LEN := rfl
@[simp] theorem clearInstance_BUF (s : State) : (clearInstance s).BUF = s.BUF := rfl
@[simp] theorem clearInstance_program (s : State) : (clearInstance s).program = s.program := rfl
@[simp] theorem clearInstance_trace (s : State) : (clearInstance s).trace = s.trace := rfl
@[simp] theorem clearInstance_turns (s : State) : (clearInstance s).turns = s.turns := rfl

@[simp] theorem latchCommand_cfg (v : Word) (s : State) : (latchCommand v s).cfg = s.cfg := rfl
@[simp] theorem latchCommand_S (v : Word) (s : State) : (latchCommand v s).S = s.S := rfl
@[simp] theorem latchCommand_R (v : Word) (s : State) : (latchCommand v s).R = s.R := rfl
@[simp] theorem latchCommand_VALID (v : Word) (s : State) : (latchCommand v s).VALID = s.VALID := rfl
@[simp] theorem latchCommand_BUSY (v : Word) (s : State) : (latchCommand v s).BUSY = true := rfl
@[simp] theorem latchCommand_ERR (v : Word) (s : State) : (latchCommand v s).ERR = s.ERR := rfl
@[simp] theorem latchCommand_PCMD (v : Word) (s : State) : (latchCommand v s).PCMD = v := rfl
@[simp] theorem latchCommand_KEY (v : Word) (s : State) : (latchCommand v s).KEY = s.KEY := rfl
@[simp] theorem latchCommand_NONCE (v : Word) (s : State) : (latchCommand v s).NONCE = s.NONCE := rfl
@[simp] theorem latchCommand_CTR_INIT (v : Word) (s : State) : (latchCommand v s).CTR_INIT = s.CTR_INIT := rfl
@[simp] theorem latchCommand_BUF_BASE (v : Word) (s : State) : (latchCommand v s).BUF_BASE = s.BUF_BASE := rfl
@[simp] theorem latchCommand_BUF_LEN (v : Word) (s : State) : (latchCommand v s).BUF_LEN = s.BUF_LEN := rfl
@[simp] theorem latchCommand_BUF (v : Word) (s : State) : (latchCommand v s).BUF = s.BUF := rfl
@[simp] theorem latchCommand_program (v : Word) (s : State) : (latchCommand v s).program = s.program := rfl
@[simp] theorem latchCommand_trace (v : Word) (s : State) : (latchCommand v s).trace = s.trace := rfl
@[simp] theorem latchCommand_turns (v : Word) (s : State) : (latchCommand v s).turns = s.turns := rfl

@[simp] theorem record_cfg (x : Transaction) (s : State) : (record x s).cfg = s.cfg := rfl
@[simp] theorem record_S (x : Transaction) (s : State) : (record x s).S = s.S := rfl
@[simp] theorem record_R (x : Transaction) (s : State) : (record x s).R = s.R := rfl
@[simp] theorem record_VALID (x : Transaction) (s : State) : (record x s).VALID = s.VALID := rfl
@[simp] theorem record_BUSY (x : Transaction) (s : State) : (record x s).BUSY = s.BUSY := rfl
@[simp] theorem record_ERR (x : Transaction) (s : State) : (record x s).ERR = s.ERR := rfl
@[simp] theorem record_PCMD (x : Transaction) (s : State) : (record x s).PCMD = s.PCMD := rfl
@[simp] theorem record_KEY (x : Transaction) (s : State) : (record x s).KEY = s.KEY := rfl
@[simp] theorem record_NONCE (x : Transaction) (s : State) : (record x s).NONCE = s.NONCE := rfl
@[simp] theorem record_CTR_INIT (x : Transaction) (s : State) : (record x s).CTR_INIT = s.CTR_INIT := rfl
@[simp] theorem record_BUF_BASE (x : Transaction) (s : State) : (record x s).BUF_BASE = s.BUF_BASE := rfl
@[simp] theorem record_BUF_LEN (x : Transaction) (s : State) : (record x s).BUF_LEN = s.BUF_LEN := rfl
@[simp] theorem record_BUF (x : Transaction) (s : State) : (record x s).BUF = s.BUF := rfl
@[simp] theorem record_program (x : Transaction) (s : State) : (record x s).program = s.program := rfl
@[simp] theorem record_trace (x : Transaction) (s : State) : (record x s).trace = s.trace ++ [x] := rfl
@[simp] theorem record_turns (x : Transaction) (s : State) : (record x s).turns = s.turns := rfl

@[simp] theorem counterAdvance_cfg (s : State) : (counterAdvance s).cfg = s.cfg := rfl
@[simp] theorem counterAdvance_S (s : State) : (counterAdvance s).S = s.S.set 12 (add32 s.S[12] 1) := rfl
@[simp] theorem counterAdvance_R (s : State) : (counterAdvance s).R = s.R := rfl
@[simp] theorem counterAdvance_VALID (s : State) : (counterAdvance s).VALID = s.VALID := rfl
@[simp] theorem counterAdvance_BUSY (s : State) : (counterAdvance s).BUSY = s.BUSY := rfl
@[simp] theorem counterAdvance_ERR (s : State) : (counterAdvance s).ERR = s.ERR := rfl
@[simp] theorem counterAdvance_PCMD (s : State) : (counterAdvance s).PCMD = s.PCMD := rfl
@[simp] theorem counterAdvance_KEY (s : State) : (counterAdvance s).KEY = s.KEY := rfl
@[simp] theorem counterAdvance_NONCE (s : State) : (counterAdvance s).NONCE = s.NONCE := rfl
@[simp] theorem counterAdvance_CTR_INIT (s : State) : (counterAdvance s).CTR_INIT = s.CTR_INIT := rfl
@[simp] theorem counterAdvance_BUF_BASE (s : State) : (counterAdvance s).BUF_BASE = s.BUF_BASE := rfl
@[simp] theorem counterAdvance_BUF_LEN (s : State) : (counterAdvance s).BUF_LEN = s.BUF_LEN := rfl
@[simp] theorem counterAdvance_BUF (s : State) : (counterAdvance s).BUF = s.BUF := rfl
@[simp] theorem counterAdvance_program (s : State) : (counterAdvance s).program = s.program := rfl
@[simp] theorem counterAdvance_trace (s : State) : (counterAdvance s).trace = s.trace := rfl
@[simp] theorem counterAdvance_turns (s : State) : (counterAdvance s).turns = s.turns := rfl

@[simp] theorem takeTurn_cfg (s : State) : (takeTurn s).cfg = s.cfg := rfl
@[simp] theorem takeTurn_S (s : State) : (takeTurn s).S = s.S := rfl
@[simp] theorem takeTurn_R (s : State) : (takeTurn s).R = s.R := rfl
@[simp] theorem takeTurn_VALID (s : State) : (takeTurn s).VALID = s.VALID := rfl
@[simp] theorem takeTurn_BUSY (s : State) : (takeTurn s).BUSY = s.BUSY := rfl
@[simp] theorem takeTurn_ERR (s : State) : (takeTurn s).ERR = s.ERR := rfl
@[simp] theorem takeTurn_PCMD (s : State) : (takeTurn s).PCMD = s.PCMD := rfl
@[simp] theorem takeTurn_KEY (s : State) : (takeTurn s).KEY = s.KEY := rfl
@[simp] theorem takeTurn_NONCE (s : State) : (takeTurn s).NONCE = s.NONCE := rfl
@[simp] theorem takeTurn_CTR_INIT (s : State) : (takeTurn s).CTR_INIT = s.CTR_INIT := rfl
@[simp] theorem takeTurn_BUF_BASE (s : State) : (takeTurn s).BUF_BASE = s.BUF_BASE := rfl
@[simp] theorem takeTurn_BUF_LEN (s : State) : (takeTurn s).BUF_LEN = s.BUF_LEN := rfl
@[simp] theorem takeTurn_BUF (s : State) : (takeTurn s).BUF = s.BUF := rfl
@[simp] theorem takeTurn_program (s : State) : (takeTurn s).program = s.program := rfl
@[simp] theorem takeTurn_trace (s : State) : (takeTurn s).trace = s.trace := rfl
@[simp] theorem takeTurn_turns (s : State) : (takeTurn s).turns = s.turns.tail := rfl

@[simp] theorem resetEvent_cfg (s : State) : (resetEvent s).cfg = s.cfg := rfl
@[simp] theorem resetEvent_S (s : State) : (resetEvent s).S = Vector.replicate 16 0 := rfl
@[simp] theorem resetEvent_R (s : State) : (resetEvent s).R = 0 := rfl
@[simp] theorem resetEvent_VALID (s : State) : (resetEvent s).VALID = false := rfl
@[simp] theorem resetEvent_BUSY (s : State) : (resetEvent s).BUSY = false := rfl
@[simp] theorem resetEvent_ERR (s : State) : (resetEvent s).ERR = .ok := rfl
@[simp] theorem resetEvent_PCMD (s : State) : (resetEvent s).PCMD = 0 := rfl
@[simp] theorem resetEvent_KEY (s : State) : (resetEvent s).KEY = Vector.replicate 8 0 := rfl
@[simp] theorem resetEvent_NONCE (s : State) : (resetEvent s).NONCE = Vector.replicate 3 0 := rfl
@[simp] theorem resetEvent_CTR_INIT (s : State) : (resetEvent s).CTR_INIT = 0 := rfl
@[simp] theorem resetEvent_BUF_BASE (s : State) : (resetEvent s).BUF_BASE = 0 := rfl
@[simp] theorem resetEvent_BUF_LEN (s : State) : (resetEvent s).BUF_LEN = 0 := rfl
@[simp] theorem resetEvent_BUF (s : State) : (resetEvent s).BUF = [] := rfl
@[simp] theorem resetEvent_program (s : State) : (resetEvent s).program = s.program := rfl
@[simp] theorem resetEvent_trace (s : State) : (resetEvent s).trace = s.trace := rfl
@[simp] theorem resetEvent_turns (s : State) : (resetEvent s).turns = s.turns := rfl

@[simp] theorem resetFor_cfg (c : Config) : (State.resetFor c).cfg = c := rfl
@[simp] theorem resetFor_S (c : Config) : (State.resetFor c).S = Vector.replicate 16 0 := rfl
@[simp] theorem resetFor_R (c : Config) : (State.resetFor c).R = 0 := rfl
@[simp] theorem resetFor_VALID (c : Config) : (State.resetFor c).VALID = false := rfl
@[simp] theorem resetFor_BUSY (c : Config) : (State.resetFor c).BUSY = false := rfl
@[simp] theorem resetFor_ERR (c : Config) : (State.resetFor c).ERR = .ok := rfl
@[simp] theorem resetFor_PCMD (c : Config) : (State.resetFor c).PCMD = 0 := rfl
@[simp] theorem resetFor_KEY (c : Config) : (State.resetFor c).KEY = Vector.replicate 8 0 := rfl
@[simp] theorem resetFor_NONCE (c : Config) : (State.resetFor c).NONCE = Vector.replicate 3 0 := rfl
@[simp] theorem resetFor_CTR_INIT (c : Config) : (State.resetFor c).CTR_INIT = 0 := rfl
@[simp] theorem resetFor_BUF_BASE (c : Config) : (State.resetFor c).BUF_BASE = 0 := rfl
@[simp] theorem resetFor_BUF_LEN (c : Config) : (State.resetFor c).BUF_LEN = 0 := rfl
@[simp] theorem resetFor_BUF (c : Config) : (State.resetFor c).BUF = [] := rfl
@[simp] theorem resetFor_program (c : Config) : (State.resetFor c).program = [] := rfl
@[simp] theorem resetFor_trace (c : Config) : (State.resetFor c).trace = [] := rfl
@[simp] theorem resetFor_turns (c : Config) : (State.resetFor c).turns = [] := rfl

end Sys2Proof.Machine
end

