-- ==== Sys2Proof/Laws/Operands.lean ====
section
/-! SUPPORT. What the checks of the commands decide, in plain arithmetic. -/

namespace Sys2Proof.Machine

/-- The range check of TRANSFORM (40_instance.md R101). -/
theorem windowInRange_iff (s : State) : windowInRange s = true ↔
    (s.BUF_LEN.toNat = 0 ∨ s.BUF_BASE.toNat + s.BUF_LEN.toNat ≤ s.cfg.BUF_BYTES) :=
  decide_eq_true_iff

/-- The parameter check of CONSTRUCT (40_instance.md R100). -/
theorem legalParameters_iff (klen nlen rc : Nat) :
    legalParameters klen nlen rc = true ↔ (klen = 32 ∧ nlen = 12 ∧ (rc = 8 ∨ rc = 12 ∨ rc = 20)) := by
  simp [legalParameters, Config.keyBytes, Config.nonceBytes, Config.legalRounds, and_assoc]

/-- ceil_div(n, 64) is the least q with 64 q ≥ n (00_scope.md section 5). -/
theorem ceilDiv64_least (n q : Nat) : ceilDiv64 n ≤ q ↔ n ≤ 64 * q := by
  unfold ceilDiv64
  omega

end Sys2Proof.Machine
end

