-- ==== Sys2Proof/Laws/Memory.lean ====
section
/-! SUPPORT. The laws of buffer memory: what a read gives after a write, and that a write keeps the canonical form. -/

namespace Sys2Proof.Machine

@[simp] theorem Memory.read_nil (a : Nat) : Memory.read [] a = none := rfl

theorem Memory.read_cons (c : Host.Cell) (m : Memory) (a : Nat) :
    Memory.read (c :: m) a = if c.1 = a then some c.2 else Memory.read m a := rfl

@[simp] theorem Memory.read_write_same (m : Memory) (a : Nat) (v : Byte) : (m.write a v).read a = some v := by
  induction m with
  | nil => simp [Memory.write, Memory.read]
  | cons c m ih =>
    simp only [Memory.write]
    split
    · simp [Memory.read]
    · split
      · simp [Memory.read]
      · rename_i h
        simp [Memory.read_cons, Ne.symm h, ih]

theorem Memory.read_write_other (m : Memory) {a x : Nat} (v : Byte) (h : x ≠ a) :
    (m.write a v).read x = m.read x := by
  induction m with
  | nil => simp [Memory.write, Memory.read, Ne.symm h]
  | cons c m ih =>
    simp only [Memory.write]
    split
    · simp [Memory.read_cons, Ne.symm h]
    · split
      · rename_i e
        simp [Memory.read_cons, Ne.symm h, ← e]
      · simp [Memory.read_cons, ih]

theorem Memory.read_write (m : Memory) (a x : Nat) (v : Byte) :
    (m.write a v).read x = if x = a then some v else m.read x := by
  split
  · rename_i h; simp [h]
  · rename_i h; exact Memory.read_write_other m v h

/-- A canonical list: its head lies below the next address, and its tail is canonical. -/
theorem Memory.wf_cons (c : Host.Cell) (m : Memory) :
    Memory.wf (c :: m) = true ↔ (∀ d, m.head? = some d → c.1 < d.1) ∧ m.wf = true := by
  cases m <;> simp [Memory.wf]

/-- The head of a memory after a write is the written cell or the old head. -/
theorem Memory.head?_write (m : Memory) (a : Nat) (v : Byte) {d : Host.Cell} (h : (m.write a v).head? = some d) :
    d.1 = a ∨ m.head? = some d := by
  cases m with
  | nil => simp [Memory.write] at h; simp [← h]
  | cons c m =>
    simp only [Memory.write] at h
    split at h
    · simp at h; simp [← h]
    · split at h
      · simp at h; simp [← h]
      · simp at h; simp [h]

/-- A write keeps the canonical form. -/
theorem Memory.wf_write {m : Memory} (h : m.wf = true) (a : Nat) (v : Byte) : (m.write a v).wf = true := by
  induction m with
  | nil => rfl
  | cons c m ih =>
    have hc := (Memory.wf_cons c m).1 h
    simp only [Memory.write]
    split
    · rename_i hlt
      exact (Memory.wf_cons _ _).2 ⟨by simp_all, h⟩
    · split
      · rename_i e
        refine (Memory.wf_cons _ _).2 ⟨fun d hd => ?_, hc.2⟩
        have := hc.1 d hd
        simp_all
      · refine (Memory.wf_cons _ _).2 ⟨fun d hd => ?_, ih hc.2⟩
        rcases Memory.head?_write m a v hd with e | e
        · simp only [e]; omega
        · exact hc.1 d e

theorem Memory.below_cons (n : Nat) (c : Host.Cell) (m : Memory) :
    Memory.below n (c :: m) = true ↔ c.1 < n ∧ m.below n = true := by
  simp only [Memory.below, List.all_cons, Bool.and_eq_true, decide_eq_true_eq]

/-- A write below `n` keeps every written byte below `n`. -/
theorem Memory.below_write {m : Memory} {n a : Nat} (h : m.below n = true) (ha : a < n) (v : Byte) :
    (m.write a v).below n = true := by
  induction m with
  | nil => simp [Memory.write, Memory.below, ha]
  | cons c m ih =>
    have hc := (Memory.below_cons n c m).1 h
    simp only [Memory.write]
    split
    · exact (Memory.below_cons _ _ _).2 ⟨ha, h⟩
    · split
      · exact (Memory.below_cons _ _ _).2 ⟨ha, hc.2⟩
      · exact (Memory.below_cons _ _ _).2 ⟨hc.1, ih hc.2⟩

/-- Nothing is read below the head of a canonical memory. -/
theorem Memory.read_lt_head {c : Host.Cell} {m : Memory} (h : Memory.wf (c :: m) = true) {x : Nat} (hx : x < c.1) :
    Memory.read (c :: m) x = none := by
  induction m generalizing c with
  | nil => simp [Memory.read_cons]; omega
  | cons d m ih =>
    have hd := (Memory.wf_cons c (d :: m)).1 h
    have := hd.1 d rfl
    rw [Memory.read_cons, if_neg (by omega)]
    exact ih hd.2 (by omega)

/-- Equal memories are equal data: two canonical memories that read alike everywhere are the same list. -/
theorem Memory.ext_of_wf {m m' : Memory} (h : m.wf = true) (h' : m'.wf = true) (e : ∀ a, m.read a = m'.read a) :
    m = m' := by
  induction m generalizing m' with
  | nil =>
    cases m' with
    | nil => rfl
    | cons d m' => have := e d.1; simp [Memory.read_cons] at this
  | cons c m ih =>
    cases m' with
    | nil => have := e c.1; simp [Memory.read_cons] at this
    | cons d m' =>
      have hc := (Memory.wf_cons c m).1 h
      have hd := (Memory.wf_cons d m').1 h'
      have hcd : c.1 = d.1 := by
        rcases Nat.lt_trichotomy c.1 d.1 with hlt | heq | hgt
        · have := e c.1
          rw [Memory.read_lt_head h' hlt] at this
          simp [Memory.read_cons] at this
        · exact heq
        · have := e d.1
          rw [Memory.read_lt_head h hgt] at this
          simp [Memory.read_cons] at this
      have hv : c.2 = d.2 := by
        have := e c.1
        simpa [Memory.read_cons, hcd] using this
      have hm : m = m' := by
        refine ih hc.2 hd.2 fun a => ?_
        by_cases ha : c.1 = a
        · have l : ∀ {k : Memory} {b : Host.Cell}, (∀ x, k.head? = some x → b.1 < x.1) → k.wf = true →
              k.read b.1 = none := by
            intro k b hb hk
            cases k with
            | nil => rfl
            | cons x k => exact Memory.read_lt_head hk (hb x rfl)
          subst ha
          rw [l hc.1 hc.2, hcd, l hd.1 hd.2]
        · have := e a
          simpa [Memory.read_cons, ha, hcd ▸ ha] using this
      rw [Prod.ext hcd hv, hm]

/-- A written byte lies below the bound. -/
theorem Memory.lt_of_read {m : Memory} {n a : Nat} {v : Byte} (h : m.below n = true) (hr : m.read a = some v) : a < n := by
  induction m with
  | nil => simp at hr
  | cons c m ih =>
    have hc := (Memory.below_cons n c m).1 h
    rw [Memory.read_cons] at hr
    split at hr
    · have := hc.1; omega
    · exact ih hc.2 hr

end Sys2Proof.Machine
end

