-- ==== Sys2Proof/Laws/Stream.lean ====
section
/-! SUPPORT. What the stream processor can do, said once: the whole of STREAM is one XOR of a keystream prefix into the
window, and the counter advanced. -/

namespace Sys2Proof.Machine

/-- The first `len` keystream bytes of state matrix S and round count R, block by block. -/
def keystream (S : StateMatrix) (R : Byte) (len : Nat) : List Byte :=
  ((List.range (ceilDiv64 len)).flatMap fun i =>
    (keystreamBlock (S.set 12 (S[12] + BitVec.ofNat 32 i)) R).toList).take len

theorem xorBytes_append (m : Memory) (a : Nat) (ks ks' : List Byte) :
    xorBytes m a (ks ++ ks') = (match xorBytes m a ks with
      | .ok m => xorBytes m (a + ks.length) ks'
      | .error f => .error f) := by
  induction ks generalizing m a with
  | nil => simp [xorBytes]
  | cons k ks ih =>
    simp only [List.cons_append, xorBytes]
    split
    · rfl
    · simp only [ih, List.length_cons, Nat.add_assoc, Nat.add_comm 1]

/-- If XORing answers a memory, every byte of the window was written, holds its XOR with the keystream, and every other byte
is as before; the canonical form and the bound are kept. -/
theorem xorBytes_ok {m m' : Memory} {a : Nat} {ks : List Byte} (h : xorBytes m a ks = .ok m') :
    (∀ j (hj : j < ks.length), ∃ b, m.read (a + j) = some b ∧ m'.read (a + j) = some (b ^^^ ks[j])) ∧
    (∀ x, x < a ∨ a + ks.length ≤ x → m'.read x = m.read x) ∧
    (m.wf = true → m'.wf = true) ∧ (∀ n, m.below n = true → m'.below n = true) := by
  induction ks generalizing m a with
  | nil =>
    simp only [xorBytes, Except.ok.injEq] at h
    subst h
    simp
  | cons k ks ih =>
    simp only [xorBytes] at h
    split at h
    · simp at h
    · rename_i b hb
      obtain ⟨h1, h2, h3, h4⟩ := ih h
      refine ⟨fun j hj => ?_, fun x hx => ?_, fun hw => h3 (Memory.wf_write hw _ _),
        fun n hn => h4 n (Memory.below_write hn (Memory.lt_of_read hn hb) _)⟩
      · cases j with
        | zero => exact ⟨b, hb, by rw [Nat.add_zero, h2 a (.inl (by omega))]; simp⟩
        | succ j =>
          obtain ⟨b', hr, hw⟩ := h1 j (by simpa using hj)
          rw [Memory.read_write_other _ _ (by omega)] at hr
          exact ⟨b', by rw [← hr]; congr 1; omega, by simpa [Nat.add_assoc, Nat.add_comm 1] using hw⟩
      · simp only [List.length_cons] at hx
        rw [h2 x (by omega), Memory.read_write_other _ _ (by omega)]

/-- XORing answers a memory when every byte of the window is written. -/
theorem xorBytes_completes {m : Memory} {a : Nat} {ks : List Byte} (h : ∀ j, j < ks.length → (m.read (a + j)).isSome) :
    ∃ m', xorBytes m a ks = .ok m' := by
  induction ks generalizing m a with
  | nil => exact ⟨m, rfl⟩
  | cons k ks ih =>
    obtain ⟨b, hb⟩ := Option.isSome_iff_exists.1 (h 0 (by simp))
    rw [Nat.add_zero] at hb
    simp only [xorBytes, hb]
    refine ih fun j hj => ?_
    rw [Memory.read_write_other _ _ (by omega)]
    simpa [Nat.add_assoc, Nat.add_comm 1] using h (j + 1) (by simpa using hj)

/-- XORing faults at the first unwritten byte of the window. -/
theorem xorBytes_faults {m : Memory} {a i : Nat} {ks : List Byte} (hi : i < ks.length)
    (written : ∀ j, j < i → (m.read (a + j)).isSome) (unwritten : m.read (a + i) = none) :
    xorBytes m a ks = .error (.unwrittenRead (a + i)) := by
  induction ks generalizing m a i with
  | nil => simp at hi
  | cons k ks ih =>
    cases i with
    | zero => simp_all [xorBytes]
    | succ i =>
      obtain ⟨b, hb⟩ := Option.isSome_iff_exists.1 (written 0 (by omega))
      rw [Nat.add_zero] at hb
      simp only [xorBytes, hb]
      have := ih (m := m.write a (b ^^^ k)) (a := a + 1) (i := i) (by simpa using hi)
        (fun j hj => by
          rw [Memory.read_write_other _ _ (by omega)]
          simpa [Nat.add_assoc, Nat.add_comm 1] using written (j + 1) (by omega))
        (by
          rw [Memory.read_write_other _ _ (by omega)]
          simpa [Nat.add_assoc, Nat.add_comm 1] using unwritten)
      rw [this]
      congr 2
      omega

/-- The effect of STREAM on the machine, given the memory the XOR leaves. -/
def streamed (blocks : Nat) (m : Memory) (s : State) : State :=
  { s with BUF := m, S := s.S.set 12 (s.S[12] + BitVec.ofNat 32 blocks) }

@[simp] theorem streamed_cfg (n : Nat) (m : Memory) (s : State) : (streamed n m s).cfg = s.cfg := rfl
@[simp] theorem streamed_S (n : Nat) (m : Memory) (s : State) : (streamed n m s).S = s.S.set 12 (s.S[12] + BitVec.ofNat 32 n) := rfl
@[simp] theorem streamed_R (n : Nat) (m : Memory) (s : State) : (streamed n m s).R = s.R := rfl
@[simp] theorem streamed_VALID (n : Nat) (m : Memory) (s : State) : (streamed n m s).VALID = s.VALID := rfl
@[simp] theorem streamed_BUSY (n : Nat) (m : Memory) (s : State) : (streamed n m s).BUSY = s.BUSY := rfl
@[simp] theorem streamed_ERR (n : Nat) (m : Memory) (s : State) : (streamed n m s).ERR = s.ERR := rfl
@[simp] theorem streamed_PCMD (n : Nat) (m : Memory) (s : State) : (streamed n m s).PCMD = s.PCMD := rfl
@[simp] theorem streamed_KEY (n : Nat) (m : Memory) (s : State) : (streamed n m s).KEY = s.KEY := rfl
@[simp] theorem streamed_NONCE (n : Nat) (m : Memory) (s : State) : (streamed n m s).NONCE = s.NONCE := rfl
@[simp] theorem streamed_CTR_INIT (n : Nat) (m : Memory) (s : State) : (streamed n m s).CTR_INIT = s.CTR_INIT := rfl
@[simp] theorem streamed_BUF_BASE (n : Nat) (m : Memory) (s : State) : (streamed n m s).BUF_BASE = s.BUF_BASE := rfl
@[simp] theorem streamed_BUF_LEN (n : Nat) (m : Memory) (s : State) : (streamed n m s).BUF_LEN = s.BUF_LEN := rfl
@[simp] theorem streamed_BUF (n : Nat) (m : Memory) (s : State) : (streamed n m s).BUF = m := rfl
@[simp] theorem streamed_program (n : Nat) (m : Memory) (s : State) : (streamed n m s).program = s.program := rfl
@[simp] theorem streamed_trace (n : Nat) (m : Memory) (s : State) : (streamed n m s).trace = s.trace := rfl
@[simp] theorem streamed_turns (n : Nat) (m : Memory) (s : State) : (streamed n m s).turns = s.turns := rfl

/-- Advancing the counter by one and then by `i` more is advancing it by `i + 1`. -/
theorem set_counter_shift (S : StateMatrix) (i : Nat) :
    (S.set 12 (add32 S[12] 1)).set 12 ((S.set 12 (add32 S[12] 1))[12] + BitVec.ofNat 32 i) =
      S.set 12 (S[12] + BitVec.ofNat 32 (i + 1)) := by
  simp only [Vector.set_set, Vector.getElem_set_self, add32, BitVec.ofNat_add, BitVec.add_assoc]
  rw [BitVec.add_comm (BitVec.ofNat 32 i)]
  rfl

/-- Blocks laid one after another, the first of them apart. -/
theorem take_flatMap_blocks {f : Nat → List Byte} (hf : (f 0).length = 64) {r : Nat} (h : 0 < r) :
    ((List.range (ceilDiv64 r)).flatMap f).take r =
      (f 0).take (min 64 r) ++
        ((List.range (ceilDiv64 (r - min 64 r))).flatMap fun i => f (i + 1)).take (r - min 64 r) := by
  have hn : ceilDiv64 r = ceilDiv64 (r - min 64 r) + 1 := by unfold ceilDiv64; omega
  have ht : (f 0).take r = (f 0).take (min 64 r) := by
    by_cases hr : r ≤ 64
    · rw [Nat.min_eq_right hr]
    · rw [Nat.min_eq_left (by omega), List.take_of_length_le (by omega), List.take_of_length_le (by omega)]
  have hd : r - 64 = r - min 64 r := by omega
  rw [hn, List.range_succ_eq_map, List.flatMap_cons, List.flatMap_map, List.take_append, hf, ht, hd]

/-- The next block of the keystream, and the keystream after it. -/
theorem keystream_step (S : StateMatrix) (R : Byte) {r : Nat} (h : 0 < r) :
    keystream S R r =
      (keystreamBlock S R).toList.take (min 64 r) ++ keystream (S.set 12 (add32 S[12] 1)) R (r - min 64 r) := by
  have hS : S.set 12 (S[12] + BitVec.ofNat 32 0) = S := by simp
  unfold keystream
  rw [take_flatMap_blocks (Vector.length_toList ..) h, hS]
  simp only [set_counter_shift]

/-- The loop of STREAM from offset `off` with enough fuel for the bytes that remain. -/
theorem streamFrom_eq (base len : Nat) (fuel off : Nat) (s : State) (enough : ceilDiv64 (len - off) ≤ fuel) :
    streamFrom base len fuel off s = (match xorBytes s.BUF (base + off) (keystream s.S s.R (len - off)) with
      | .ok m => .ok (streamed (ceilDiv64 (len - off)) m s)
      | .error f => .error f) := by
  induction fuel generalizing off s with
  | zero =>
    have : len - off = 0 := by unfold ceilDiv64 at enough; omega
    simp [streamFrom, this, keystream, xorBytes, streamed, ceilDiv64]
  | succ fuel ih =>
    simp only [streamFrom]
    split
    · rename_i hoff
      have hrem : len - (off + min 64 (len - off)) = len - off - min 64 (len - off) := by omega
      have hn : ceilDiv64 (len - off) = ceilDiv64 (len - off - min 64 (len - off)) + 1 := by unfold ceilDiv64; omega
      have hlen : ((keystreamBlock s.S s.R).toList.take (min 64 (len - off))).length = min 64 (len - off) := by
        simp
      rw [keystream_step _ _ (by omega), xorBytes_append, hlen]
      simp only [block, xorWindow, counterAdvance_BUF]
      cases xorBytes s.BUF (base + off) ((keystreamBlock s.S s.R).toList.take (min 64 (len - off))) with
      | error f => rfl
      | ok m =>
        dsimp only
        rw [ih _ _ (by rw [hrem]; omega), hrem, Nat.add_assoc]
        simp only [counterAdvance_S, counterAdvance_R]
        cases xorBytes m (base + (off + min 64 (len - off)))
            (keystream (s.S.set 12 (add32 s.S[12] 1)) s.R (len - off - min 64 (len - off))) with
        | error f => rfl
        | ok m' => simp only [streamed, counterAdvance, set_counter_shift, hn]
    · have : len - off = 0 := by omega
      simp [this, keystream, xorBytes, streamed, ceilDiv64]

/-- The whole of STREAM: one XOR of the keystream prefix of length `len` into the window, and the counter advanced by
ceil_div(len, 64) (44_stream_processor.md R170, R172). -/
theorem stream_eq (base len : Nat) (s : State) :
    stream base len s = (match xorBytes s.BUF base (keystream s.S s.R len) with
      | .ok m => .ok (streamed (ceilDiv64 len) m s)
      | .error f => .error f) := by
  exact streamFrom_eq base len (ceilDiv64 len) 0 s (Nat.le_refl _)

@[simp] theorem keystream_length (S : StateMatrix) (R : Byte) (len : Nat) : (keystream S R len).length = len := by
  have : len ≤ ceilDiv64 len * 64 := by unfold ceilDiv64; omega
  simp only [keystream, List.length_take, List.length_flatMap, Vector.length_toList, List.map_const', List.length_range,
    List.sum_replicate, smul_eq_mul]
  omega

/-- Byte i of the keystream is byte i mod 64 of the block of counter S[12] + i / 64 (44_stream_processor.md R178). -/
theorem keystream_getElem (S : StateMatrix) (R : Byte) (len i : Nat) (h : i < len) :
    (keystream S R len)[i]'(by simpa using h) =
      (keystreamBlock (S.set 12 (S[12] + BitVec.ofNat 32 (i / 64))) R)[i % 64] := by
  induction len using Nat.strongRecOn generalizing S i with
  | ind len ih =>
    simp only [keystream_step S R (show 0 < len by omega)]
    rcases Nat.lt_or_ge i 64 with hi | hi
    · rw [List.getElem_append_left (by simp; omega)]
      have h0 : i / 64 = 0 := by omega
      have hS : S.set 12 (S[12] + BitVec.ofNat 32 0) = S := by simp
      simp only [List.getElem_take, Vector.getElem_toList, h0, hS, Nat.mod_eq_of_lt hi]
    · rw [List.getElem_append_right (by simp; omega)]
      have hlen : ((keystreamBlock S R).toList.take (min 64 len)).length = 64 := by simp; omega
      have hd : (i - 64) / 64 + 1 = i / 64 := by omega
      have hm : (i - 64) % 64 = i % 64 := by omega
      simp only [hlen]
      rw [ih (len - min 64 len) (by omega) _ (i - 64) (by omega)]
      simp only [set_counter_shift, hd, hm]

end Sys2Proof.Machine
end

