-- ==== Sys2Proof/Laws/Exec.lean ====
section
/-! SUPPORT. What a command can do, said once: the equations and the inversion lemma of exec and of the core's turn. -/

namespace Sys2Proof.Machine

/-- TRANSFORM with its checks passed is one XOR of keystream into the window. -/
theorem execTransform_eq {s : State} (valid : s.VALID = true) (inRange : windowInRange s = true) :
    execTransform s = (match xorBytes s.BUF (windowBase s) (keystream s.S s.R (windowLen s)) with
      | .ok m => .next (succeed (streamed (ceilDiv64 (windowLen s)) m s))
      | .error f => .fault f) := by
  simp only [execTransform, valid, inRange, Bool.not_true, Bool.false_eq_true, if_false, stream_eq]
  cases xorBytes s.BUF (windowBase s) (keystream s.S s.R (windowLen s)) <;> rfl

/-- The ways TRANSFORM answers a next state. -/
theorem execTransform_next {s t : State} (h : execTransform s = .next t) :
    (s.VALID = false ∧ t = raiseErr .notConstructed s) ∨
    (s.VALID = true ∧ windowInRange s = false ∧ t = raiseErr .bufferRange s) ∨
    (s.VALID = true ∧ windowInRange s = true ∧ ∃ m,
      xorBytes s.BUF (windowBase s) (keystream s.S s.R (windowLen s)) = .ok m ∧
      t = succeed (streamed (ceilDiv64 (windowLen s)) m s)) := by
  cases hv : s.VALID
  · simp only [execTransform, hv, Bool.not_false, if_true, Host.Outcome.next.injEq] at h
    exact .inl ⟨rfl, h.symm⟩
  · cases hr : windowInRange s
    · simp only [execTransform, hv, hr, Bool.not_true, Bool.not_false, Bool.false_eq_true, if_false, if_true,
        Host.Outcome.next.injEq] at h
      exact .inr (.inl ⟨rfl, rfl, h.symm⟩)
    · rw [execTransform_eq hv hr] at h
      cases hx : xorBytes s.BUF (windowBase s) (keystream s.S s.R (windowLen s)) with
      | error f => simp [hx] at h
      | ok m =>
        simp only [hx, Host.Outcome.next.injEq] at h
        exact .inr (.inr ⟨rfl, rfl, m, rfl, h.symm⟩)

/-- The ways a command answers a next state. -/
theorem exec_next {i : Instr} {s t : State} (h : exec i s = .next t) :
    (∃ klen nlen rc, i = .construct klen nlen rc ∧ legalParameters klen nlen rc = true ∧
      t = succeed (setInstance (initState (keyOf s.KEY) (nonceOf s.NONCE) s.CTR_INIT) (BitVec.ofNat 8 rc) s)) ∨
    (∃ klen nlen rc, i = .construct klen nlen rc ∧ legalParameters klen nlen rc = false ∧
      t = raiseErr .invalidParameter (clearInstance s)) ∨
    (i = .transform ∧ s.VALID = false ∧ t = raiseErr .notConstructed s) ∨
    (i = .transform ∧ s.VALID = true ∧ windowInRange s = false ∧ t = raiseErr .bufferRange s) ∨
    (i = .transform ∧ s.VALID = true ∧ windowInRange s = true ∧ ∃ m,
      xorBytes s.BUF (windowBase s) (keystream s.S s.R (windowLen s)) = .ok m ∧
      t = succeed (streamed (ceilDiv64 (windowLen s)) m s)) ∨
    (i = .discard ∧ t = succeed (clearInstance s)) := by
  cases i with
  | construct klen nlen rc =>
    simp only [exec, execConstruct] at h
    split at h
    · rename_i hl
      exact .inl ⟨klen, nlen, rc, rfl, hl, (Host.Outcome.next.inj h).symm⟩
    · rename_i hl
      exact .inr (.inl ⟨klen, nlen, rc, rfl, by simpa using hl, (Host.Outcome.next.inj h).symm⟩)
  | transform =>
    rcases execTransform_next h with ⟨hv, ht⟩ | ⟨hv, hr, ht⟩ | ⟨hv, hr, m, hm, ht⟩
    · exact .inr (.inr (.inl ⟨rfl, hv, ht⟩))
    · exact .inr (.inr (.inr (.inl ⟨rfl, hv, hr, ht⟩)))
    · exact .inr (.inr (.inr (.inr (.inl ⟨rfl, hv, hr, m, hm, ht⟩))))
  | discard =>
    exact .inr (.inr (.inr (.inr (.inr ⟨rfl, (Host.Outcome.next.inj h).symm⟩))))

/-- The ways the core's turn answers a next state. -/
theorem coreTurn_next {s t : State} (h : coreTurn s = .next t) :
    (s.BUSY = false ∧ t = s) ∨
    (s.BUSY = true ∧ ∃ r, decode s.PCMD = .error r ∧ t = raiseErr .illegalCommand s) ∨
    (s.BUSY = true ∧ ∃ i, decode s.PCMD = .ok i ∧ exec i s = .next t) := by
  simp only [coreTurn] at h
  split at h
  · rename_i hb
    simp only [coreStep] at h
    split at h
    · rename_i i hi
      exact .inr (.inr ⟨hb, i, hi, h⟩)
    · rename_i r hr
      exact .inr (.inl ⟨hb, r, hr, (Host.Outcome.next.inj h).symm⟩)
  · rename_i hb
    exact .inl ⟨by simpa using hb, (Host.Outcome.next.inj h).symm⟩

end Sys2Proof.Machine
end

