-- ==== Sys2Proof/Laws/HostPort.lean ====
section
/-! SUPPORT. What a host access and a host turn can do, said once. -/

namespace Sys2Proof.Machine

/-- The ways a host access answers a next state: a read that only records its transaction, an admitted register write, or a
buffer write. -/
theorem hostAccess_next {a : HostAccess} {s t : State} (h : hostAccess a s = .next t) :
    (∃ x, t = record x s) ∨
    (s.BUSY = false ∧ ∃ off v r, a = .regWrite 32 off v ∧ accessedReg 32 off = some r ∧
      t = record (.regW off v) (writeReg r v s)) ∨
    (s.BUSY = false ∧ ∃ b v, a = .bufWrite b v ∧ b < s.cfg.BUF_BYTES ∧
      t = record (.bufW b v) { s with BUF := s.BUF.write b v }) := by
  cases a with
  | regWrite width off v =>
    simp only [hostAccess, hostRegWrite] at h
    split at h
    · simp at h
    · rename_i r hr
      split at h
      · simp at h
      · rename_i hb
        have hw : width = 32 := by
          unfold accessedReg at hr
          split at hr
          · rename_i hc; exact hc.1
          · simp at hr
        subst hw
        exact .inr (.inl ⟨by simpa using hb, off, v, r, rfl, hr, (Host.Outcome.next.inj h).symm⟩)
  | regRead width off =>
    simp only [hostAccess, hostRegRead] at h
    split at h
    · simp at h
    · split at h
      · simp at h
      · exact .inl ⟨_, (Host.Outcome.next.inj h).symm⟩
  | bufWrite b v =>
    simp only [hostAccess, hostBufWrite] at h
    split at h
    · simp at h
    · rename_i hlt
      split at h
      · simp at h
      · rename_i hb
        exact .inr (.inr ⟨by simpa using hb, b, v, rfl, by omega, (Host.Outcome.next.inj h).symm⟩)
  | bufRead b =>
    simp only [hostAccess, hostBufRead] at h
    split at h
    · simp at h
    · split at h
      · simp at h
      · split at h
        · simp at h
        · exact .inl ⟨_, (Host.Outcome.next.inj h).symm⟩

/-- Slot n of the window is the register whose offset is 4n. -/
theorem offset_of_slotReg {n : Nat} {r : Reg} (h : slotReg n = some r) : r.offset = 4 * n := by
  unfold slotReg at h
  repeat' split at h
  all_goals simp only [Option.some.injEq, reduceCtorEq] at h
  all_goals subst h; simp only [Reg.offset] <;> omega

/-- An admitted access reaches the register that stands at its offset. -/
theorem offset_of_accessedReg {width off : Nat} {r : Reg} (h : accessedReg width off = some r) : r.offset = off := by
  unfold accessedReg at h
  split at h
  · rename_i hc
    have := offset_of_slotReg h
    omega
  · simp at h

/-- A register write leaves the instance, the result code, the buffer and the configuration alone. -/
theorem writeReg_keeps (r : Reg) (v : Word) (s : State) :
    (writeReg r v s).S = s.S ∧ (writeReg r v s).R = s.R ∧ (writeReg r v s).VALID = s.VALID ∧
    (writeReg r v s).ERR = s.ERR ∧ (writeReg r v s).BUF = s.BUF ∧ (writeReg r v s).cfg = s.cfg ∧
    (writeReg r v s).program = s.program ∧ (writeReg r v s).turns = s.turns := by
  cases r <;> exact ⟨rfl, rfl, rfl, rfl, rfl, rfl, rfl, rfl⟩

/-- The ways a host turn answers a next state. -/
theorem hostTurn_next {s t : State} (h : hostTurn s = .next t) :
    (s.program = [] ∧ t = s) ∨
    (∃ a p, s.program = .access a :: p ∧ hostAccess a { s with program := p } = .next t) ∨
    (∃ p x, s.program = .poll :: p ∧ t = record x { s with program := if s.BUSY then .poll :: p else p }) := by
  unfold hostTurn at h
  split at h
  · rename_i hp
    exact .inl ⟨hp, (Host.Outcome.next.inj h).symm⟩
  · rename_i a p hp
    exact .inr (.inl ⟨a, p, hp, h⟩)
  · rename_i p hp
    have hs : accessedReg 32 Reg.status.offset = some .status := by decide
    simp only [hostRegRead, hs, ne_eq, not_true, and_false, if_false] at h
    exact .inr (.inr ⟨p, _, hp, (Host.Outcome.next.inj h).symm⟩)

end Sys2Proof.Machine
end

