-- ==== Sys2Proof/Laws/PerInstr.lean ====
section
/-! SUPPORT. The per-instruction family TableRow: the encoding of an instruction is a word of its row of
spec/opcode_table.json. -/

namespace Sys2Proof.Laws.TableRow

/-- The encoded word agrees with the row's match under the row's mask. -/
def Statement : Instr → Prop
  | .construct klen nlen rc =>
    (Instr.construct klen nlen rc).wellFormed = true → encode (.construct klen nlen rc) &&& 0x000000FF = 0x00000001
  | .transform => encode .transform &&& 0xFFFFFFFF = 0x00000002
  | .discard => encode .discard &&& 0xFFFFFFFF = 0x00000003

theorem construct (klen nlen rc : Nat) : Statement (.construct klen nlen rc) := by
  intro _
  simp only [encode]
  ext i hi
  simp only [BitVec.getElem_and, BitVec.getElem_or, BitVec.getElem_shiftLeft]
  rcases Nat.lt_or_ge i 8 with h | h
  · have h24 : i < 24 := by omega
    have h16 : i < 16 := by omega
    simp only [h24, h16, h, decide_true, Bool.not_true, Bool.false_and, Bool.false_or]
    interval_cases i <;> decide +revert
  · interval_cases i <;> simp

theorem transform : Statement .transform := by
  show encode .transform &&& 0xFFFFFFFF = 0x00000002
  decide

theorem discard : Statement .discard := by
  show encode .discard &&& 0xFFFFFFFF = 0x00000003
  decide

end Sys2Proof.Laws.TableRow
end

