-- ==== Sys2Proof/Laws/QuarterRound.lean ====
section
/-! SUPPORT. One word after a quarter round at a quadruple, without unfolding the quarter round. -/

namespace Sys2Proof.Machine

theorem writeQuad_getElem (W : StateMatrix) (q : Quad) (r : Word × Word × Word × Word) (j : Nat) (h : j < 16) :
    (writeQuad W q r)[j] = if q.d.val = j then r.2.2.2 else if q.c.val = j then r.2.2.1 else
      if q.b.val = j then r.2.1 else if q.a.val = j then r.1 else W[j] := by
  simp only [writeQuad, Vector.getElem_set]

/-- What stands in word j after QR_AT (42_quarter_round.md R131). -/
theorem qrAt_getElem (W : StateMatrix) (q : Quad) (j : Nat) (h : j < 16) :
    (qrAt W q)[j] = if q.d.val = j then (qr W[q.a] W[q.b] W[q.c] W[q.d]).2.2.2 else
      if q.c.val = j then (qr W[q.a] W[q.b] W[q.c] W[q.d]).2.2.1 else
      if q.b.val = j then (qr W[q.a] W[q.b] W[q.c] W[q.d]).2.1 else
      if q.a.val = j then (qr W[q.a] W[q.b] W[q.c] W[q.d]).1 else W[j] :=
  writeQuad_getElem W q _ j h

end Sys2Proof.Machine
end

