-- ==== Sys2Proof/Laws/Step.lean ====
section
/-! SUPPORT. What one step can do, said once: a reset, a host turn or a core turn. -/

namespace Sys2Proof.Machine

/-- The ways a step answers a next state. -/
theorem step_next {s t : State} (h : step s = .next t) :
    (nextTurn s = .reset ∧ t = resetEvent (takeTurn s)) ∨
    (nextTurn s = .host ∧ hostTurn (takeTurn s) = .next t) ∨
    (nextTurn s = .core ∧ coreTurn (takeTurn s) = .next t) := by
  unfold step turn at h
  split at h
  · exact .inr (.inl ⟨by assumption, h⟩)
  · exact .inr (.inr ⟨by assumption, h⟩)
  · exact .inl ⟨by assumption, (Host.Outcome.next.inj h).symm⟩

/-- A host turn leaves the instance, the result code and the configuration alone. -/
theorem hostTurn_keeps {s t : State} (h : hostTurn s = .next t) :
    t.S = s.S ∧ t.R = s.R ∧ t.VALID = s.VALID ∧ t.ERR = s.ERR ∧ t.cfg = s.cfg ∧ t.turns = s.turns := by
  rcases hostTurn_next h with ⟨_, rfl⟩ | ⟨a, p, _, ha⟩ | ⟨p, x, _, rfl⟩
  · exact ⟨rfl, rfl, rfl, rfl, rfl, rfl⟩
  · rcases hostAccess_next ha with ⟨x, rfl⟩ | ⟨_, off, v, r, _, _, rfl⟩ | ⟨_, b, v, _, _, rfl⟩
    · exact ⟨rfl, rfl, rfl, rfl, rfl, rfl⟩
    · obtain ⟨h1, h2, h3, h4, _, h6, _, h8⟩ := writeReg_keeps r v { s with program := p }
      exact ⟨h1, h2, h3, h4, h6, h8⟩
    · exact ⟨rfl, rfl, rfl, rfl, rfl, rfl⟩
  · exact ⟨rfl, rfl, rfl, rfl, rfl, rfl⟩

end Sys2Proof.Machine
end

