-- ==== Sys2Proof/Tests/Slice0.lean ====
section
/-! SUPPORT. Tests of the model on the spec's own examples, and one witness for the hypotheses of each statement. Expected
values come from the spec's files, named in each comment; none is the model's own answer. -/

namespace Sys2Proof.Machine.Test

/-! Many theorems here wait for the kernel; run one after another they need few threads. -/
set_option Elab.async false

/-! ## Helpers -/

def nextOf : Host.Outcome State Fault Refusal → Option State
  | .next s => some s
  | _ => none

def faultOf : Host.Outcome State Fault Refusal → Option Fault
  | .fault f => some f
  | _ => none

def refusalOf : Host.Outcome State Fault Refusal → Option Refusal
  | .refused r => some r
  | _ => none

/-- `n` zero bytes from address `a` upward. -/
def zeros (a n : Nat) : Memory := (List.range n).map fun i => (a + i, 0)

def zeroState : StateMatrix := initState (Vector.replicate 32 0) (Vector.replicate 12 0) 0

/-- A zero-key ChaCha8 instance with the last three bytes of a 256-byte buffer as its window, each ff. -/
def small : State :=
  { State.reset with
    S := zeroState, R := 8, VALID := true, BUF_BASE := 253, BUF_LEN := 3
    BUF := [(253, 0xff), (254, 0xff), (255, 0xff)] }

/-! ## WellFormed refuses an ill-formed term for each of its checks (30_encoding.md R82) -/

theorem test_illformed_klen : (Instr.construct 256 12 20).wellFormed = false := by decide
theorem test_illformed_nlen : (Instr.construct 32 256 20).wellFormed = false := by decide
theorem test_illformed_rcnt : (Instr.construct 32 12 256).wellFormed = false := by decide
theorem test_wellformed_bounds : (Instr.construct 255 0 255).wellFormed = true := by decide

/-! ## Decoding (30_encoding.md R81; 95_test_vectors.md 2.8) -/

/-- RCNT 0x14, NLEN 0x0C, KLEN 0x20, RSV 0, OP 1. -/
theorem test_decode_construct : decode 0b00010100_00001100_00100000_0000_0001 = .ok (.construct 32 12 20) := by decide
theorem test_decode_construct_any_field : decode 0xFFFFFF01 = .ok (.construct 255 255 255) := by decide
theorem test_decode_transform : decode 0b00000000_00000000_00000000_0000_0010 = .ok .transform := by decide
theorem test_decode_discard : decode 0b00000000_00000000_00000000_0000_0011 = .ok .discard := by decide
theorem test_decode_rsv : decode 0x140C2011 = .error .rsvNotZero := by decide
theorem test_decode_zero_field : decode 0x00000102 = .error .mustBeZero := by decide
theorem test_decode_reserved : decode 0x0000000F = .error .reservedOp := by decide
theorem test_encode_chacha12 : encode (.construct 32 12 12) = 0x0C0C2001 := by decide
theorem test_decode_table_word : decodeTableWord 32 0x080C2001 = some (.construct 32 12 8) ∧ decodeTableWord 8 1 =
    some (.construct 0 0 0) := by decide

/-! ## The units (95_test_vectors.md 2.1 to 2.6) -/

theorem test_rotl32 : rotl32 0x12345678 7 = 0x1a2b3c09 := by decide
theorem test_le32 : le32 (#v[0x78, 0x56, 0x34, 0x12] : Vector Byte 4) 0 = 0x12345678 := by decide
/-- 41_state_initializer.md R121: the constants spell "expand 32-byte k". -/
theorem test_constants_ascii : (le32Bytes zeroState[0]).toList = [0x65, 0x78, 0x70, 0x61] ∧
    (le32Bytes zeroState[3]).toList = [0x74, 0x65, 0x20, 0x6b] := by decide
theorem test_qr : qr 0x11111111 0x01020304 0x9b8d6f43 0x01234567 = (0xea2a92f4, 0xcb1cf8ce, 0x4581472e, 0x5881c4bb) := by
  decide
/-- 95_test_vectors.md 2.4, W[i] = i: the column pass comes first. -/
theorem test_double_round : (doubleRound (#v[0, 1, 2, 3, 4, 5, 6, 7, 8, 9, 10, 11, 12, 13, 14, 15])).toList =
    [0xa9295c6a, 0xb471be7a, 0x38e65ec4, 0x74348b87, 0xf1ad76c6, 0x7b44627b, 0x946682b0, 0xf12f4910,
     0xd7e22f80, 0x3232ddd4, 0xb5b3b74d, 0xc0240444, 0xc8a5de45, 0xe417e1d3, 0x1a392478, 0x983c4ebf] := by decide +kernel
/-- 95_test_vectors.md V1, its first and last four bytes. -/
theorem test_block_v1 : ((block { small with R := 20 }).1.toList.take 4, (block { small with R := 20 }).1.toList.drop 60) =
    ([0x76, 0xb8, 0xe0, 0xad], [0xb2, 0xee, 0x65, 0x86]) := by decide +kernel

/-! ## The commands -/

/-- 40_instance.md R100, example: STATUS, COUNTER and ROUNDS after CONSTRUCT, as the first step after reset. -/
theorem test_construct : (nextOf (step (State.reset.withFetchWord 32 0x140C2001))).map
    (fun t => (statusWord t, readReg .counter t, readReg .rounds t, t.S)) = some (0x00000002, 0, 20, zeroState) := by
  decide +kernel
/-- 95_test_vectors.md E7: KLEN = 31 over an existing instance. -/
theorem test_construct_fails : (nextOf (coreTurn (latchCommand 0x140C1F01 small))).map
    (fun t => (statusWord t, readReg .counter t, readReg .rounds t)) = some (0x00000010, 0, 0) := by decide +kernel
/-- 44_stream_processor.md R171, example: ff ff ff becomes 89 47 1f. -/
theorem test_transform : (nextOf (coreTurn (latchCommand 2 { small with R := 20 }))).map
    (fun t => (statusWord t, readReg .counter t, t.BUF)) =
    some (0x00000002, 1, [(253, 0x89), (254, 0x47), (255, 0x1f)]) := by decide +kernel
/-- 95_test_vectors.md 2.8: base + len does not wrap. -/
theorem test_transform_range : (nextOf (coreTurn (latchCommand 2 { small with BUF_BASE := 0xFFFFFFFF, BUF_LEN := 2 }))).map
    statusWord = some 0x00000032 := by decide +kernel
/-- 40_instance.md R102, example. -/
theorem test_discard : (nextOf (coreTurn (latchCommand 3 small))).map
    (fun t => (statusWord t, readReg .counter t, readReg .rounds t, t.BUF)) = some (0, 0, 0, small.BUF) := by decide +kernel
/-- 95_test_vectors.md 2.8: an ILLEGAL word over an instance. -/
theorem test_illegal : (nextOf (coreTurn (latchCommand 0x140C2003 small))).map statusWord = some 0x00000042 := by
  decide +kernel

/-! ## The host port (95_test_vectors.md 2.9) -/

theorem test_status_while_busy : (nextOf (hostAccess (.regRead 32 0x3C) (latchCommand 2 small))).map (·.trace) =
    some [.regR 0x3C 0x00000003] := by decide +kernel
theorem test_access_while_busy : faultOf (hostAccess (.bufWrite 0 0) (latchCommand 2 small)) = some .hostAccessWhileBusy := by
  decide +kernel
theorem test_unwritten_read : faultOf (hostAccess (.bufRead 5) small) = some (.unwrittenRead 5) := by decide +kernel
theorem test_refused_accesses : refusalOf (hostAccess (.bufRead 256) small) = some (.bufferAddress 256) ∧
    refusalOf (hostAccess (.regRead 16 0x3C) small) = some (.registerAccess 16 0x3C) ∧
    refusalOf (hostAccess (.regRead 32 0x3E) small) = some (.registerAccess 32 0x3E) ∧
    refusalOf (hostAccess (.regRead 32 0x100) small) = some (.registerAccess 32 0x100) := by decide +kernel
theorem test_key_register : (nextOf (hostAccess (.regWrite 32 0x0C 0xdeadbeef) small)).map (readReg (.key 3)) =
    some 0xdeadbeef := by decide +kernel
/-- 30_encoding.md R90: the word of `construct rounds=20`. -/
theorem test_construct_statement : construct 20 = [.access (.regWrite 32 0x38 0x140C2001), .poll] := by decide
/-- 95_test_vectors.md 2.10: a pending TRANSFORM at reset. -/
theorem test_reset : (nextOf (step { latchCommand 2 small with turns := [.reset] })).map
    (fun t => (statusWord t, t.BUF)) = some (0, []) := by decide +kernel

/-! ## A witness for the hypotheses of each statement -/

theorem witness_RotationMovesEveryBit : (0 < 1 ∧ 1 < 32) ∧ (0 < 31 ∧ 31 < 32) := by decide
theorem witness_DecodeOfEncodeIsTheInstruction : (Instr.construct 255 255 255).wellFormed = true ∧
    Instr.transform.wellFormed = true ∧ Instr.discard.wellFormed = true := by decide
theorem witness_EncodeOfDecodeIsTheWord : decode 0xFFFFFF01 = .ok (.construct 255 255 255) := by decide
/-- One word for each clause: RSV; CONSTRUCT; TRANSFORM without and with a set bit above 7; DISCARD likewise; a reserved OP. -/
theorem witness_DecodeFollowsTheFields :
    (0x00000010 : Word).extractLsb' 4 4 ≠ 0 ∧
    ((0xFFFFFF01 : Word).extractLsb' 4 4 = 0 ∧ (0xFFFFFF01 : Word).extractLsb' 0 4 = 1) ∧
    ((0x00000002 : Word).extractLsb' 0 4 = 2 ∧ (0x00000002 : Word).extractLsb' 8 24 = 0) ∧
    ((0x80000002 : Word).extractLsb' 0 4 = 2 ∧ (0x80000002 : Word).extractLsb' 8 24 ≠ 0) ∧
    ((0x00000003 : Word).extractLsb' 0 4 = 3 ∧ (0x00000003 : Word).extractLsb' 8 24 = 0) ∧
    ((0x00000103 : Word).extractLsb' 0 4 = 3 ∧ (0x00000103 : Word).extractLsb' 8 24 ≠ 0) ∧
    ((0x00000004 : Word).extractLsb' 0 4 ≠ 1 ∧ (0x00000004 : Word).extractLsb' 0 4 ≠ 2 ∧
      (0x00000004 : Word).extractLsb' 0 4 ≠ 3) := by decide
/-- A reserved OP, a set RSV bit, and a set must-be-zero bit of TRANSFORM and of DISCARD. -/
theorem witness_IllegalWordsOnlyReportAnError :
    [0x00000000, 0x0000000F, 0x140C2011, 0x00000102, 0x80000003].all (fun v : Word =>
      decide ((latchCommand v small).BUSY = true ∧
        ((v.extractLsb' 0 4 ≠ 1 ∧ v.extractLsb' 0 4 ≠ 2 ∧ v.extractLsb' 0 4 ≠ 3) ∨ v.extractLsb' 4 4 ≠ 0 ∨
          ((v.extractLsb' 0 4 = 2 ∨ v.extractLsb' 0 4 = 3) ∧ v.extractLsb' 8 24 ≠ 0)))) = true := by decide +kernel
theorem witness_InitStateHasItsLayout : 7 < 8 ∧ 2 < 3 := by decide
theorem witness_StagingRegistersReachTheStateUnchanged : 7 < 8 ∧ 3 < 4 ∧ 2 < 3 := by decide
theorem witness_ConstructBuildsOrDiscardsTheInstance : ((32 = 32 ∧ 12 = 12) ∧ (20 = 8 ∨ 20 = 12 ∨ 20 = 20)) ∧
    ¬ (31 = 32 ∧ 12 = 12 ∧ (20 = 8 ∨ 20 = 12 ∨ 20 = 20)) ∧ ¬ (32 = 32 ∧ 13 = 12 ∧ (20 = 8 ∨ 20 = 12 ∨ 20 = 20)) ∧
    ¬ (32 = 32 ∧ 12 = 12 ∧ (10 = 8 ∨ 10 = 12 ∨ 10 = 20)) := by decide

theorem small_written : windowWritten small.BUF_BASE.toNat small.BUF_LEN.toNat small.BUF := by
  unfold windowWritten
  decide +kernel

/-- No instance; one byte too many; the last window that fits, written; and length 0 past the end. -/
theorem witness_TransformFollowsItsRule : State.reset.VALID = false ∧
    (small.VALID = true ∧ ({ small with BUF_LEN := 4 } : State).BUF_BASE.toNat + 4 > small.cfg.BUF_BYTES) ∧
    (small.BUF_BASE.toNat + small.BUF_LEN.toNat ≤ small.cfg.BUF_BYTES ∧
      windowWritten small.BUF_BASE.toNat small.BUF_LEN.toNat small.BUF) ∧
    (({ small with BUF_BASE := 256, BUF_LEN := 0 } : State).BUF_LEN.toNat = 0 ∧ windowWritten 256 0 small.BUF) :=
  ⟨rfl, by decide +kernel, ⟨by decide +kernel, small_written⟩, by decide +kernel, fun _ h => absurd h (Nat.not_lt_zero _)⟩
theorem witness_TransformHasItsClosedForm : small.VALID = true ∧
    small.S = initState (Vector.replicate 32 0) (Vector.replicate 12 0) 0 ∧
    small.BUF_BASE.toNat + small.BUF_LEN.toNat ≤ small.cfg.BUF_BYTES ∧ (nextOf (exec .transform small)).isSome = true := by
  decide +kernel
/-- The first byte unwritten, and the last. -/
theorem witness_TransformFaultsAtTheFirstUnwrittenByte :
    (State.reset.BUF.read 0 = none ∧ 0 + 1 ≤ State.reset.cfg.BUF_BYTES) ∧
    ((∀ j, j < 2 → (Memory.read [(0, 1), (1, 1)] (0 + j)).isSome) ∧ Memory.read [(0, 1), (1, 1)] (0 + 2) = none) := by
  decide +kernel
theorem witness_XorWindowXorsAPrefix : (∀ j, j < 3 → (small.BUF.read (253 + j)).isSome) ∧ small.BUF.read (250 + 0) = none ∧
    (∀ j, j < 64 → (Memory.read (zeros 0 64) (0 + j)).isSome) := by decide +kernel
theorem witness_EmptyWindowIsANoOp : ({ small with BUF_LEN := 0 } : State).BUF_LEN = 0 ∧ small.VALID = true ∧
    State.reset.BUF_LEN = 0 ∧ State.reset.VALID = false := by decide +kernel
theorem witness_AlignedChunksEqualOneTransform : small.VALID = true ∧ 64 % 64 = 0 ∧ 191 + 64 < 2 ^ 32 ∧ 64 + 1 < 2 ^ 32 ∧
    191 + (64 + 1) ≤ small.cfg.BUF_BYTES ∧ (∀ i, i < 64 + 1 → (Memory.read (zeros 191 65) (191 + i)).isSome) := by
  decide +kernel
theorem witness_NextTransformStartsANewBlock :
    ((nextOf (exec .transform { small with BUF_LEN := 1 })).bind fun t =>
      nextOf (exec .transform { t with BUF_BASE := 254, BUF_LEN := 2 })).isSome = true := by decide +kernel
theorem witness_TransformingTwiceGivesTheBufferBack : small.BUF_BASE.toNat + small.BUF_LEN.toNat ≤ small.cfg.BUF_BYTES ∧
    small.BUF.wf = true ∧ windowWritten small.BUF_BASE.toNat small.BUF_LEN.toNat small.BUF :=
  ⟨by decide +kernel, by decide, small_written⟩
/-- Two states that agree on what the commands read and differ in the rest; and one TRANSFORM that faults. -/
theorem witness_CommandsReadOnlyTheirOperands : small.S = ({ small with KEY := Vector.replicate 8 7 } : State).S ∧
    small.KEY ≠ ({ small with KEY := Vector.replicate 8 7 } : State).KEY ∧ (nextOf (exec .transform small)).isSome = true ∧
    faultOf (exec .transform { small with BUF := [] }) = some (.unwrittenRead 253) := by decide +kernel
/-- Two windows at different places with the same bytes. -/
theorem witness_CommandsReadOnlyTheirOperands_places :
    (∀ i, i < 3 → small.BUF.read (253 + i) = Memory.read [(0, 0xff), (1, 0xff), (2, 0xff)] (0 + i)) ∧
    (nextOf (exec .transform { small with BUF_BASE := 0, BUF := [(0, 0xff), (1, 0xff), (2, 0xff)] })).isSome = true := by
  decide +kernel

/-- One pending command for each of the five result codes. -/
theorem witness_CompletedCommandReportsItsCode :
    [(0x080C2001, ErrCode.ok), (0x00000001, .invalidParameter), (0x00000000, .illegalCommand), (0x00000003, .ok)].all
      (fun p => decide ((nextOf (coreTurn (latchCommand p.1 small))).map (·.ERR) = some p.2)) = true ∧
    (nextOf (coreTurn (latchCommand 2 State.reset))).map (·.ERR) = some .notConstructed ∧
    (nextOf (coreTurn (latchCommand 2 { small with BUF_LEN := 4 }))).map (·.ERR) = some .bufferRange := by decide +kernel
theorem witness_PendingCommandCompletes : (latchCommand 2 small).BUSY = true := rfl
theorem witness_ErrorsArePrecise : (nextOf (coreTurn (latchCommand 0x140C1F01 small))).map (·.ERR) = some .invalidParameter ∧
    decode 0x140C1F01 = .ok (.construct 31 12 20) ∧ (nextOf (coreTurn (latchCommand 0 small))).map (·.ERR) =
      some .illegalCommand ∧ decode 0 = .error .reservedOp := by decide +kernel
theorem witness_CommandsLeaveTheRestUnchanged : (nextOf (exec (.construct 32 12 8) small)).isSome = true ∧
    (nextOf (exec .transform small)).isSome = true ∧ (nextOf (exec .discard small)).isSome = true := by decide +kernel

theorem witness_ResetStateHoldsItsValues : 15 < 16 ∧ 7 < 8 ∧ 2 < 3 := by decide
theorem witness_ResetClearsTheCoreAtAnyTime : nextTurn { latchCommand 2 small with turns := [.reset] } = .reset := rfl
theorem small_invariant : StateInvariant small :=
  ⟨by decide, by decide +kernel, fun _ => ⟨⟨rfl, rfl, rfl, rfl⟩, by decide⟩, fun h => absurd h (by decide)⟩
theorem witness_EveryStepKeepsTheInvariant : StateInvariant (latchCommand 2 small) ∧
    (nextOf (step (latchCommand 2 small))).isSome = true :=
  ⟨⟨small_invariant.bufCanonical, small_invariant.bufInRange, small_invariant.whileValid, small_invariant.whileNotValid⟩,
    by decide +kernel⟩
/-- A reset; a DISCARD; a CONSTRUCT; a host turn; a TRANSFORM without an instance: each a step that answers next. -/
theorem witness_ValidityBitFollowsTheLastConstruct :
    nextTurn { small with turns := [.reset] } = .reset ∧ runsCommand (latchCommand 3 small) = some .discard ∧
    runsCommand (latchCommand 0x080C2001 small) = some (.construct 32 12 8) ∧
    runsCommand (latchCommand 2 State.reset) = some .transform ∧
    [{ small with turns := [.reset] }, latchCommand 3 small, latchCommand 0x080C2001 small, small,
      latchCommand 2 State.reset].all (fun s => (nextOf (step s)).isSome) = true := by decide +kernel

/-- A host turn ends no lifetime. -/
theorem host_goesOn {s : State} (h : nextTurn s = .host) : ¬ endsLifetime s := by
  simp [endsLifetime, runsCommand, h]

/-- An instance just constructed, with TRANSFORM as the host's next statement; and the state that statement leads to. -/
def lifeStart : State := { small with program := [wr .cmd 2] }
def lifePending : State := { small with PCMD := 2, BUSY := true, trace := [.regW 0x38 2] }

theorem lifePending_goesOn : ¬ endsLifetime lifePending := by
  have hr : runsCommand lifePending = some .transform := by decide +kernel
  rintro (h | h | ⟨_, _, _, h⟩)
  · exact absurd h (by decide +kernel)
  · rw [hr] at h; cases h
  · rw [hr] at h; cases h

theorem eq_next_of {o : Host.Outcome State Fault Refusal} {t : State} (h : nextOf o = some t) : o = .next t := by
  cases o with
  | next u => exact congrArg _ (Option.some.inj h)
  | fault f => cases h
  | refused r => cases h

/-- From a successful CONSTRUCT, one host step (a write of CMD) and one TRANSFORM of one block. -/
theorem witness_InstanceKeepsItsInvariantsForLife : ∃ s0 t, exec (.construct 32 12 8) s0 = .next lifeStart ∧
    Lifetime lifeStart 1 t := by
  have h1 : step lifeStart = .next lifePending := eq_next_of (by decide +kernel)
  have hs : (nextOf (step lifePending)).isSome = true := by decide +kernel
  cases ht : step lifePending with
  | next t =>
    have n0 : 0 + blocksProduced lifeStart + blocksProduced lifePending = 1 := by decide +kernel
    refine ⟨{ State.reset with BUF_BASE := 253, BUF_LEN := 3, BUF := small.BUF, program := [wr .cmd 2] }, t,
      eq_next_of (by decide +kernel), n0 ▸ Lifetime.step (Lifetime.step .refl (host_goesOn rfl) h1) lifePending_goesOn ht⟩
  | fault f => rw [ht] at hs; cases hs
  | refused r => rw [ht] at hs; cases hs

theorem witness_QuarterRoundAtTouchesFourWords : (0 : Fin 16) ≠ 4 ∧ (0 : Fin 16) ≠ 8 ∧ (0 : Fin 16) ≠ 12 ∧ (4 : Fin 16) ≠ 8 ∧
    (4 : Fin 16) ≠ 12 ∧ (8 : Fin 16) ≠ 12 ∧ (15 : Fin 16) ≠ 0 := by decide
theorem witness_PassesActLaneByLane : 0 < 4 ∧ 3 < 4 := by decide
theorem witness_OrderWithinAPassDoesNotMatter : columnQuads.reverse.Perm columnQuads ∧ diagonalQuads.reverse.Perm diagonalQuads :=
  ⟨List.reverse_perm _, List.reverse_perm _⟩
theorem witness_RoundsRunFourQuarterRoundsPerRound : (8 : Byte).toNat = 8 ∧ (12 : Byte).toNat = 12 ∧ (20 : Byte).toNat = 20 := by
  decide
theorem witness_FeedForwardThenSerialize : 15 < 16 ∧ 3 < 4 := by decide
theorem witness_BlockAdvancesTheCounter : ({ small with S := small.S.set 12 0xFFFFFFFF } : State).S[12] = 0xFFFFFFFF := by
  decide +kernel
theorem witness_NthBlockHasItsClosedForm : small.S = initState (Vector.replicate 32 0) (Vector.replicate 12 0) 0 := rfl
theorem witness_KeystreamRepeatsAfterTheCounterWraps : 0 % 2 ^ 32 = 0 ∧ 4294967296 % 2 ^ 32 = 0 := by decide

theorem witness_OtherRegisterAccessesAreRefused : ¬ (16 = 32 ∧ 0x3C % 4 = 0 ∧ 0x3C < 0x100) ∧
    ¬ (32 = 32 ∧ 0x3E % 4 = 0 ∧ 0x3E < 0x100) ∧ ¬ (32 = 32 ∧ 0x100 % 4 = 0 ∧ 0x100 < 0x100) := by decide
theorem witness_RegisterMapIsABijection : accessedReg 32 0xFC = some (.reserved 45) ∧ 0xFC % 4 = 0 ∧ 0xFC < 0x100 := by decide
theorem witness_RegisterWritesFollowTheMap : (latchCommand 2 small).BUSY = true ∧ small.BUSY = false ∧
    (0x3C % 4 = 0 ∧ 0x3C ≤ 0x3C) ∧ (0xFC % 4 = 0 ∧ 0x3C ≤ 0xFC ∧ 0xFC < 0x100) ∧ 7 < 8 ∧ 2 < 3 := by decide +kernel
theorem witness_RegisterReadsFollowTheMap : (latchCommand 2 small).BUSY = true ∧ small.BUSY = false ∧
    (0x40 % 4 = 0 ∧ 0x40 ≠ 0x3C) ∧ (0x48 % 4 = 0 ∧ 0x48 ≤ 0x48) ∧ (0xFC % 4 = 0 ∧ 0x48 ≤ 0xFC ∧ 0xFC < 0x100) := by
  decide +kernel
theorem witness_StagingRegistersReadBack : (∃ j, Reg.key 7 = .key j) ∧ (∃ j, Reg.nonce 2 = .nonce j) ∧ small.BUSY = false :=
  ⟨⟨7, rfl⟩, ⟨2, rfl⟩, rfl⟩
theorem witness_BufferAccessesFollowTheirRules : 256 ≥ small.cfg.BUF_BYTES ∧ 255 < small.cfg.BUF_BYTES ∧
    (latchCommand 2 small).BUSY = true ∧ small.BUSY = false ∧ small.BUF.read 0 = none ∧ small.BUF.read 255 = some 0xff := by
  decide +kernel
theorem witness_AccessWhileBusyFaults : (latchCommand 2 small).BUSY = true ∧ (0xFC % 4 = 0 ∧ 0xFC < 0x100 ∧ 0xFC ≠ 0x3C) ∧
    255 < (latchCommand 2 small).cfg.BUF_BYTES := by decide +kernel
theorem witness_HostAccessesLeaveTheRestUnchanged :
    [HostAccess.regRead 32 0x40, .bufRead 255, .regWrite 32 0x00 1, .bufWrite 0 1].all
      (fun a => (nextOf (hostAccess a small)).isSome) = true := by decide +kernel
theorem witness_HostAccessesSeeOnlyTheCounterOfTheMatrix : (small.S.set 4 1)[12] = small.S[12] ∧ small.S.set 4 1 ≠ small.S ∧
    (nextOf (hostAccess (.bufRead 255) small)).isSome = true ∧ (faultOf (hostAccess (.bufRead 0) small)).isSome = true ∧
    (refusalOf (hostAccess (.bufRead 256) small)).isSome = true := by decide +kernel
theorem witness_SetkeyLoadsTheKey : small.BUSY = false ∧ small.turns = [] ∧
    ({ small with program := setkey (Vector.replicate 32 1) } : State).program = setkey (Vector.replicate 32 1) ++ [] := by
  decide +kernel

theorem witness_StepRunsTheDecodedCommand : nextTurn (latchCommand 2 small) = .core ∧ (latchCommand 2 small).BUSY = true ∧
    decode (latchCommand 2 small).PCMD = .ok .transform ∧ decode (latchCommand 0 small).PCMD = .error .reservedOp ∧
    nextTurn { small with turns := [.core] } = .core ∧ small.BUSY = false := by decide +kernel
theorem witness_StepRunsTheHostStatement : nextTurn { small with program := [wr .cmd 2] } = .host ∧
    nextTurn { small with program := [.poll] } = .host ∧
    nextTurn { latchCommand 2 small with program := [.poll], turns := [.host] } = .host ∧ small.program = [] := by
  decide +kernel
theorem witness_IdleCoreKeepsItsState : small.BUSY = false ∧ nextTurn small ≠ .reset ∧ small.program = [] ∧
    nextTurn { small with turns := [.core] } = .core := by decide +kernel
theorem witness_BusyFallsOnlyByCompletionOrReset :
    [latchCommand 2 small, { latchCommand 2 small with turns := [.host] }, { latchCommand 2 small with turns := [.reset] }].all
      (fun s => s.BUSY && (nextOf (step s)).isSome) = true := by decide +kernel
theorem witness_BusyRisesOnlyByACommandWrite :
    (nextOf (step { small with program := [wr .cmd 2] })).map (·.BUSY) = some true ∧ small.BUSY = false := by decide +kernel
theorem witness_PollLoopEnds :
    ({ latchCommand 2 small with program := [.poll], turns := [.host, .host] } : State).turns = List.replicate 2 .host ∧
    (latchCommand 2 small).BUSY = true ∧ commandCompletes (latchCommand 2 small) :=
  ⟨rfl, rfl, fun _ _ _ => small_written⟩

end Sys2Proof.Machine.Test
end

namespace Sys2Proof.Machine

/-! ## Rotation and little-endian bytes

The rotation of 00_scope.md R10 bit by bit, the load and the bytes of R11 and R12 byte by byte, and O1 and O2. -/

/-- R10's formula is the library's rotation. -/
theorem rotl32_eq_rotateLeft (x : Word) {n : Nat} (h : n < 32) : rotl32 x n = x.rotateLeft n := by
  rw [BitVec.rotateLeft_def, Nat.mod_eq_of_lt h, rotl32]

theorem getLsbD_rotl32 (x : Word) {n i : Nat} (hn : n < 32) (hi : i < 32) :
    (rotl32 x n).getLsbD i = x.getLsbD ((i + 32 - n) % 32) := by
  rw [rotl32_eq_rotateLeft x hn, BitVec.getLsbD_rotateLeft, Nat.mod_eq_of_lt hn]
  by_cases h : i < n
  · have hwrap : (i + 32 - n) % 32 = 32 - n + i := by omega
    simp [h, hwrap]
  · have hstay : (i + 32 - n) % 32 = i - n := by omega
    simp [h, hi, hstay]

theorem getLsbD_byteOf (w : Word) (k i : Nat) :
    (byteOf w k).getLsbD i = (decide (i < 8) && w.getLsbD (8 * k + i)) :=
  BitVec.getLsbD_extractLsb' ..

@[simp] theorem getElem_le32Bytes (w : Word) {k : Nat} (h : k < 4) : (le32Bytes w)[k] = byteOf w k := by
  obtain rfl | rfl | rfl | rfl : k = 0 ∨ k = 1 ∨ k = 2 ∨ k = 3 := by omega
  all_goals rfl

theorem byteOf_or (v w : Word) (k : Nat) : byteOf (v ||| w) k = byteOf v k ||| byteOf w k :=
  BitVec.extractLsb'_or

/-- A byte shifted to place m of a word fills that place and no other. -/
theorem byteOf_zext32_shiftLeft (c : Byte) {k : Nat} (m : Nat) (hk : k < 4) :
    byteOf (zext32 c <<< (8 * m)) k = if k = m then c else 0 := by
  apply BitVec.eq_of_getLsbD_eq
  intro j hj
  have hbit : (byteOf (zext32 c <<< (8 * m)) k).getLsbD j = (decide (m ≤ k) && c.getLsbD (8 * k + j - 8 * m)) := by
    have hm : 8 * k + j < 8 * m ↔ ¬ m ≤ k := by omega
    have hword : 8 * k + j < 32 := by omega
    have hoff : 8 * k + j - 8 * m < 32 := by omega
    simp only [getLsbD_byteOf, zext32, BitVec.getLsbD_shiftLeft, BitVec.getLsbD_setWidth, hj, hm, hword, hoff,
      decide_true, decide_not, Bool.not_not, Bool.true_and]
  rw [hbit]
  obtain h | rfl | h := Nat.lt_trichotomy k m
  · simp [h.not_ge, h.ne]
  · simp
  · simp [h.ne', BitVec.getLsbD_of_ge c (8 * k + j - 8 * m) (by omega)]

/-- R11 byte by byte: each of the four bytes loaded fills its own place of the word. -/
theorem byteOf_le32 {n : Nat} (b : Vector Byte n) (i : Nat) (h : i + 3 < n) {k : Nat} (hk : k < 4) :
    byteOf (le32 b i h) k = b[i + k] := by
  have hplaces : le32 b i h = zext32 b[i] <<< (8 * 0) ||| zext32 b[i + 1] <<< (8 * 1) |||
      zext32 b[i + 2] <<< (8 * 2) ||| zext32 b[i + 3] <<< (8 * 3) := by simp [le32]
  simp only [hplaces, byteOf_or, byteOf_zext32_shiftLeft _ _ hk]
  obtain rfl | rfl | rfl | rfl : k = 0 ∨ k = 1 ∨ k = 2 ∨ k = 3 := by omega
  all_goals simp

/-- A word is its four bytes. -/
theorem eq_of_byteOf_eq {v w : Word} (h : ∀ k < 4, byteOf v k = byteOf w k) : v = w := by
  apply BitVec.eq_of_getLsbD_eq
  intro i hi
  have hbyte := congrArg (·.getLsbD (i % 8)) (h (i / 8) (by omega))
  simpa only [getLsbD_byteOf, Nat.mod_lt i (by decide : 0 < 8), Nat.div_add_mod, decide_true, Bool.true_and]
    using hbyte

theorem le32_le32Bytes (w : Word) : le32 (le32Bytes w) 0 = w :=
  eq_of_byteOf_eq fun k hk => by simp [byteOf_le32 _ _ _ hk]

theorem le32Bytes_le32 (b : Vector Byte 4) : le32Bytes (le32 b 0) = b :=
  Vector.ext fun k hk => by simp [byteOf_le32 _ _ _ hk]

/-- Settles O1: below 32, rotl32 is the library's rotation, whose bits either wrap around or move up by n. -/
theorem rotationMovesEveryBit : Obligations.RotationMovesEveryBit :=
  fun x _ _ hn => ⟨rfl, fun _ hi => getLsbD_rotl32 x hn hi⟩

/-- Settles O2: a loaded word has the loaded bytes, and a word is determined by its four bytes. -/
theorem littleEndianBytesInvertTheLoad : Obligations.LittleEndianBytesInvertTheLoad :=
  ⟨fun w _ h => getElem_le32Bytes w h, le32_le32Bytes, le32Bytes_le32⟩

end Sys2Proof.Machine

namespace Sys2Proof.Machine

/-! ## The instance over its lifetime

What each command leaves of the instance, which steps run a command, and how far the instance moves in a step and in a
lifetime (10_state.md R21, R23, R37): O25, O29 and O30. -/

/-- The load of the four bytes of a word is the word. -/
theorem le32_eq_of_bytes {n : Nat} {b : Vector Byte n} {i : Nat} (h : i + 3 < n) {w : Word}
    (hbytes : ∀ k (hk : k < 4), b[i + k] = byteOf w k) : le32 b i h = w :=
  eq_of_byteOf_eq fun k hk => (byteOf_le32 b i h hk).trans (hbytes k hk)

/-- 20_memory.md R59: a word of the staged key is its register. -/
theorem le32_keyOf (KEY : Vector Word 8) {i : Nat} (h : i + 3 < 32) (aligned : i % 4 = 0) :
    le32 (keyOf KEY) i h = KEY[i / 4] := by
  refine le32_eq_of_bytes h fun k hk => ?_
  have hword : (i + k) / 4 = i / 4 := by omega
  have hbyte : (i + k) % 4 = k := by omega
  simp [keyOf, hword, hbyte]

/-- 20_memory.md R59: a word of the staged nonce is its register. -/
theorem le32_nonceOf (NONCE : Vector Word 3) {i : Nat} (h : i + 3 < 12) (aligned : i % 4 = 0) :
    le32 (nonceOf NONCE) i h = NONCE[i / 4] := by
  refine le32_eq_of_bytes h fun k hk => ?_
  have hword : (i + k) / 4 = i / 4 := by omega
  have hbyte : (i + k) % 4 = k := by omega
  simp [nonceOf, hword, hbyte]

/-- 41_state_initializer.md R122: the initial state holds the staging registers themselves. -/
theorem initState_staged (KEY : Vector Word 8) (NONCE : Vector Word 3) (ctr : Word) :
    initState (keyOf KEY) (nonceOf NONCE) ctr = instanceWords KEY ctr NONCE := by
  simp [initState, instanceWords, le32_keyOf, le32_nonceOf]

@[simp] theorem instanceWords_counter (KEY : Vector Word 8) (ctr : Word) (NONCE : Vector Word 3) :
    (instanceWords KEY ctr NONCE)[12] = ctr := rfl

@[simp] theorem instanceWords_set_counter (KEY : Vector Word 8) (ctr c : Word) (NONCE : Vector Word 3) :
    (instanceWords KEY ctr NONCE).set 12 c = instanceWords KEY c NONCE := rfl

/-- CONSTRUCT on legal parameters (40_instance.md R100). -/
theorem exec_construct_of_legal {klen nlen rc : Nat} (h : legalParameters klen nlen rc = true) (s : State) :
    exec (.construct klen nlen rc) s =
      .next (succeed (setInstance (instanceWords s.KEY s.CTR_INIT s.NONCE) (BitVec.ofNat 8 rc) s)) := by
  simp only [exec, execConstruct, h, if_true, initState_staged]

/-- CONSTRUCT on any other parameters (40_instance.md R100). -/
theorem exec_construct_of_illegal {klen nlen rc : Nat} (h : legalParameters klen nlen rc = false) (s : State) :
    exec (.construct klen nlen rc) s = .next (raiseErr .invalidParameter (clearInstance s)) := by
  simp only [exec, execConstruct, h, Bool.false_eq_true, if_false]

/-- A CONSTRUCT leaves an instance exactly when its parameters are legal. -/
theorem valid_of_exec_construct {klen nlen rc : Nat} {s t : State}
    (h : exec (.construct klen nlen rc) s = .next t) : t.VALID = legalParameters klen nlen rc := by
  cases hl : legalParameters klen nlen rc
  · rw [exec_construct_of_illegal hl] at h
    cases h
    rfl
  · rw [exec_construct_of_legal hl] at h
    cases h
    rfl

/-- TRANSFORM without an instance (40_instance.md R101). -/
theorem exec_transform_of_not_valid {s : State} (h : s.VALID = false) :
    exec .transform s = .next (raiseErr .notConstructed s) := by
  simp only [exec, execTransform, h, Bool.not_false, if_true]

/-- DISCARD (40_instance.md R102). -/
theorem exec_discard (s : State) : exec .discard s = .next (succeed (clearInstance s)) := rfl

theorem runsCommand_eq_some {s : State} {i : Instr} :
    runsCommand s = some i ↔ nextTurn s = .core ∧ s.BUSY = true ∧ decode s.PCMD = .ok i := by
  unfold runsCommand
  cases decode s.PCMD <;> simp [Except.toOption, and_assoc]

/-- A step that runs a command is the execution of that command. -/
theorem step_of_runsCommand {s : State} {i : Instr} (h : runsCommand s = some i) : step s = exec i (takeTurn s) := by
  obtain ⟨hturn, hbusy, hdecode⟩ := runsCommand_eq_some.1 h
  simp only [step, hturn, turn, coreTurn, coreStep, takeTurn_BUSY, takeTurn_PCMD, hbusy, hdecode, if_true]

/-- A step that is a reset is the reset event (70_reset_and_hazards.md R230). -/
theorem step_of_reset {s : State} (h : nextTurn s = .reset) : step s = .next (resetEvent (takeTurn s)) := by
  simp only [step, h, turn]

/-- A step that is no reset and runs no command, that of the host, an idle core or an ILLEGAL word, leaves the instance
alone. -/
theorem instance_of_step_no_command {s t : State} (h : step s = .next t) (notReset : nextTurn s ≠ .reset)
    (noCommand : runsCommand s = none) : t.VALID = s.VALID ∧ t.R = s.R ∧ t.S = s.S := by
  obtain ⟨hreset, _⟩ | ⟨_, hhost⟩ | ⟨hturn, hcore⟩ := step_next h
  · exact absurd hreset notReset
  · obtain ⟨hS, hR, hVALID, _⟩ := hostTurn_keeps hhost
    exact ⟨hVALID, hR, hS⟩
  · obtain ⟨_, rfl⟩ | ⟨_, _, _, rfl⟩ | ⟨hbusy, i, hdecode, _⟩ := coreTurn_next hcore
    · exact ⟨rfl, rfl, rfl⟩
    · exact ⟨rfl, rfl, rfl⟩
    · have hruns : runsCommand s = some i := runsCommand_eq_some.2 ⟨hturn, hbusy, hdecode⟩
      rw [noCommand] at hruns
      cases hruns

/-- The instance at `t` is the one at `s` with its counter advanced by `n`. -/
def InstanceAdvanced (n : Nat) (s t : State) : Prop :=
  t.VALID = s.VALID ∧ t.R = s.R ∧ t.S = s.S.set 12 (s.S[12] + BitVec.ofNat 32 n)

theorem InstanceAdvanced.of_eq {s t : State} (hVALID : t.VALID = s.VALID) (hR : t.R = s.R) (hS : t.S = s.S) :
    InstanceAdvanced 0 s t :=
  ⟨hVALID, hR, by simp [hS]⟩

theorem InstanceAdvanced.trans {m n : Nat} {s t u : State} (hst : InstanceAdvanced m s t)
    (htu : InstanceAdvanced n t u) : InstanceAdvanced (m + n) s u := by
  obtain ⟨hVALID, hR, hS⟩ := hst
  obtain ⟨hVALID', hR', hS'⟩ := htu
  refine ⟨hVALID'.trans hVALID, hR'.trans hR, ?_⟩
  simp only [hS', hS, Vector.set_set, Vector.getElem_set_self, BitVec.ofNat_add, BitVec.add_assoc]

/-- A step that runs TRANSFORM advances the counter by the blocks it produces, 0 when a check fails
(40_instance.md R101, 44_stream_processor.md R172). -/
theorem instanceAdvanced_of_transform {s t : State} (h : step s = .next t) (hruns : runsCommand s = some .transform) :
    InstanceAdvanced (blocksProduced s) s t := by
  have hexec : execTransform (takeTurn s) = .next t := (step_of_runsCommand hruns).symm.trans h
  obtain ⟨(hvalid : s.VALID = false), rfl⟩ | ⟨_, (hout : windowInRange s = false), rfl⟩ |
    ⟨(hvalid : s.VALID = true), (hin : windowInRange s = true), m, _, rfl⟩ := execTransform_next hexec
  · have hblocks : blocksProduced s = 0 := by simp [blocksProduced, hvalid]
    exact hblocks ▸ .of_eq rfl rfl rfl
  · have hblocks : blocksProduced s = 0 := by simp [blocksProduced, hout]
    exact hblocks ▸ .of_eq rfl rfl rfl
  · have hblocks : blocksProduced s = ceilDiv64 (windowLen s) := by simp [blocksProduced, hruns, hvalid, hin]
    exact hblocks ▸ ⟨rfl, rfl, rfl⟩

/-- 10_state.md R21, one step: within a lifetime a step advances the counter by the blocks it produces and leaves the rest
of the instance alone. -/
theorem instanceAdvanced_of_step {s t : State} (h : step s = .next t) (goesOn : ¬ endsLifetime s) :
    InstanceAdvanced (blocksProduced s) s t := by
  obtain ⟨notReset, notDiscard, notConstruct⟩ := not_or.1 goesOn |>.imp_right not_or.1
  cases hruns : runsCommand s with
  | none =>
    obtain ⟨hVALID, hR, hS⟩ := instance_of_step_no_command h notReset hruns
    have hblocks : blocksProduced s = 0 := by simp [blocksProduced, hruns]
    exact hblocks ▸ .of_eq hVALID hR hS
  | some i =>
    cases i with
    | construct klen nlen rc => exact absurd ⟨klen, nlen, rc, hruns⟩ notConstruct
    | transform => exact instanceAdvanced_of_transform h hruns
    | discard => exact absurd hruns notDiscard

/-- 10_state.md R21 along a lifetime. -/
theorem Lifetime.instanceAdvanced {s t : State} {n : Nat} (h : Lifetime s n t) : InstanceAdvanced n s t := by
  induction h with
  | refl => exact .of_eq rfl rfl rfl
  | step _ goesOn moves ih => exact ih.trans (instanceAdvanced_of_step moves goesOn)

/-- Settles O30: CONSTRUCT leaves the staged instance, and along the lifetime only its counter moves, by the blocks
produced. -/
theorem instanceKeepsItsInvariantsForLife : Obligations.InstanceKeepsItsInvariantsForLife := by
  intro s0 s t rc n hrc hconstruct hlife
  have hlegal : legalParameters 32 12 rc = true := (legalParameters_iff 32 12 rc).2 ⟨rfl, rfl, hrc⟩
  rw [exec_construct_of_legal hlegal] at hconstruct
  cases hconstruct
  obtain ⟨hVALID, hR, hS⟩ := hlife.instanceAdvanced
  exact ⟨hVALID, hR, by simpa using hS⟩

/-- Settles O29: each clause is what the reset event, the command the step runs, or a step within a lifetime does to
VALID. -/
theorem validityBitFollowsTheLastConstruct : Obligations.ValidityBitFollowsTheLastConstruct := by
  intro s t h
  refine ⟨fun hreset => ?_, fun hruns => ?_, fun klen nlen rc hruns => ?_, fun goesOn => ?_, fun hruns hvalid => ?_⟩
  · rw [step_of_reset hreset] at h
    cases h
    rfl
  · rw [step_of_runsCommand hruns, exec_discard] at h
    cases h
    rfl
  · rw [step_of_runsCommand hruns] at h
    rw [valid_of_exec_construct h, legalParameters_iff]
  · obtain ⟨hVALID, _⟩ := instanceAdvanced_of_step h goesOn
    exact hVALID
  · rw [step_of_runsCommand hruns, exec_transform_of_not_valid (s := takeTurn s) hvalid] at h
    cases h
    rfl

/-- Settles O25: the vectors are replicated zeros, the buffer is empty, and the other fields are written out. -/
theorem resetStateHoldsItsValues : Obligations.ResetStateHoldsItsValues :=
  fun _ => ⟨fun _ h => Vector.getElem_replicate h, rfl, rfl, rfl, rfl, rfl, fun _ h => Vector.getElem_replicate h,
    fun _ h => Vector.getElem_replicate h, rfl, rfl, rfl, Memory.read_nil⟩

end Sys2Proof.Machine

namespace Sys2Proof.Machine

/-! ## The register window

The staged bytes and words of 20_memory.md R59, 41_state_initializer.md R122, and the accesses that 20_memory.md R51
admits: O9 and O40. -/

/-- Key byte 4j + k is byte k of KEY[j] (20_memory.md R59). -/
theorem getElem_keyOf (KEY : Vector Word 8) {j k : Nat} (hj : j < 8) (hk : k < 4) :
    (keyOf KEY)[4 * j + k] = byteOf KEY[j] k := by
  have hword : (4 * j + k) / 4 = j := by omega
  have hbyte : (4 * j + k) % 4 = k := by omega
  simp [keyOf, hword, hbyte]

/-- Nonce byte 4j + k is byte k of NONCE[j] (20_memory.md R59). -/
theorem getElem_nonceOf (NONCE : Vector Word 3) {j k : Nat} (hj : j < 3) (hk : k < 4) :
    (nonceOf NONCE)[4 * j + k] = byteOf NONCE[j] k := by
  have hword : (4 * j + k) / 4 = j := by omega
  have hbyte : (4 * j + k) % 4 = k := by omega
  simp [nonceOf, hword, hbyte]

/-- Words 4 to 11 of the initial state are the key registers. -/
theorem instanceWords_key (KEY : Vector Word 8) (ctr : Word) (NONCE : Vector Word 3) {j : Nat} (hj : j < 8) :
    (instanceWords KEY ctr NONCE)[4 + j] = KEY[j] := by
  obtain rfl | rfl | rfl | rfl | rfl | rfl | rfl | rfl :
    j = 0 ∨ j = 1 ∨ j = 2 ∨ j = 3 ∨ j = 4 ∨ j = 5 ∨ j = 6 ∨ j = 7 := by omega
  all_goals rfl

/-- Words 13 to 15 of the initial state are the nonce registers. -/
theorem instanceWords_nonce (KEY : Vector Word 8) (ctr : Word) (NONCE : Vector Word 3) {j : Nat} (hj : j < 3) :
    (instanceWords KEY ctr NONCE)[13 + j] = NONCE[j] := by
  obtain rfl | rfl | rfl : j = 0 ∨ j = 1 ∨ j = 2 := by omega
  all_goals rfl

/-- Settles O9: the staged bytes are those of the registers, so their load is the register, and the initial state built
from them is the one built from the registers. -/
theorem stagingRegistersReachTheStateUnchanged : Obligations.StagingRegistersReachTheStateUnchanged := by
  intro KEY NONCE ctr
  refine ⟨fun j k hj hk => getElem_keyOf KEY hj hk, fun j k hj hk => getElem_nonceOf NONCE hj hk,
    fun j hj => ⟨?_, ?_⟩, fun j hj => ⟨?_, ?_⟩, ?_⟩
  · exact le32_eq_of_bytes _ fun k hk => getElem_keyOf KEY hj hk
  · simp only [initState_staged, instanceWords_key KEY ctr NONCE hj]
  · exact le32_eq_of_bytes _ fun k hk => getElem_nonceOf NONCE hj hk
  · simp only [initState_staged, instanceWords_nonce KEY ctr NONCE hj]
  · simp only [initState_staged, instanceWords_counter]

/-- The window has 64 slots, and each holds a register (10_state.md R36). -/
theorem slotReg_eq_none_iff {n : Nat} : slotReg n = none ↔ 64 ≤ n := by
  constructor
  · intro hnone
    by_contra hlt
    have hfilled : ∀ m < 64, slotReg m ≠ none := by decide
    exact hfilled n (by omega) hnone
  · intro hge
    simp (disch := omega) only [slotReg, dif_neg, if_neg]

/-- 20_memory.md R51: exactly the aligned 32-bit accesses inside the window reach a register. -/
theorem accessedReg_eq_none_iff {width off : Nat} :
    accessedReg width off = none ↔ ¬ (width = 32 ∧ off % 4 = 0 ∧ off < 0x100) := by
  unfold accessedReg
  split
  · next inWindow =>
    have hslot : ¬ 64 ≤ off / 4 := by
      obtain ⟨_, _, hoff⟩ := inWindow
      simp only [Config.windowBytes] at hoff
      omega
    exact iff_of_false (mt slotReg_eq_none_iff.1 hslot) (not_not_intro inWindow)
  · next outside => exact iff_of_true rfl outside

/-- A register write that reaches no register is refused, whatever BUSY is (20_memory.md R51). -/
theorem hostAccess_regWrite_refused {width off : Nat} (h : accessedReg width off = none) (v : Word) (s : State) :
    hostAccess (.regWrite width off v) s = .refused (.registerAccess width off) := by
  simp only [hostAccess, hostRegWrite, h]

/-- A register read that reaches no register is refused, whatever BUSY is (20_memory.md R51). -/
theorem hostAccess_regRead_refused {width off : Nat} (h : accessedReg width off = none) (s : State) :
    hostAccess (.regRead width off) s = .refused (.registerAccess width off) := by
  simp only [hostAccess, hostRegRead, h]

/-- Settles O40: an access that is not admitted reaches no register, and both accesses refuse before BUSY is looked at. -/
theorem otherRegisterAccessesAreRefused : Obligations.OtherRegisterAccessesAreRefused := by
  intro width off
  refine ⟨accessedReg_eq_none_iff, fun notAdmitted s v => ?_⟩
  have hnone : accessedReg width off = none := accessedReg_eq_none_iff.2 notAdmitted
  exact ⟨hostAccess_regWrite_refused hnone v s, hostAccess_regRead_refused hnone s⟩

end Sys2Proof.Machine

namespace Sys2Proof.Machine

/-! ## Which words decode

The decoder of 30_encoding.md R84 said once for the words that carry a command and once for those that are ILLEGAL; the
mask and match of the opcode table's rows as conditions on the fields; and O6 and O7. -/

/-- The words that carry a command, and which one each carries. -/
theorem decode_eq_ok_iff {v : Word} {i : Instr} :
    decode v = .ok i ↔ fieldRSV v = 0 ∧
      ((fieldOP v = 1 ∧ .construct (fieldKLEN v).toNat (fieldNLEN v).toNat (fieldRCNT v).toNat = i) ∨
        (fieldOP v = 2 ∧ fieldZERO v = 0 ∧ .transform = i) ∨ (fieldOP v = 3 ∧ fieldZERO v = 0 ∧ .discard = i)) := by
  by_cases hrsv : fieldRSV v = 0#4
  · by_cases hconstruct : fieldOP v = 1#4
    · simp [decode, hrsv, hconstruct]
    by_cases htransform : fieldOP v = 2#4
    · by_cases hzero : fieldZERO v = 0#24 <;> simp [decode, hrsv, htransform, hzero]
    by_cases hdiscard : fieldOP v = 3#4
    · by_cases hzero : fieldZERO v = 0#24 <;> simp [decode, hrsv, hdiscard, hzero]
    · simp [decode, hrsv, hconstruct, htransform, hdiscard]
  · simp [decode, hrsv]

/-- The words that are ILLEGAL (30_encoding.md R85, R86): OP is reserved, RSV is not zero, or a bit that must be zero in
TRANSFORM or DISCARD is set. -/
theorem decode_eq_error_iff {v : Word} :
    (∃ r, decode v = .error r) ↔ (fieldOP v ≠ 1 ∧ fieldOP v ≠ 2 ∧ fieldOP v ≠ 3) ∨ fieldRSV v ≠ 0 ∨
      ((fieldOP v = 2 ∨ fieldOP v = 3) ∧ fieldZERO v ≠ 0) := by
  have hillegal : (∃ r, decode v = .error r) ↔ ¬ ∃ i, decode v = .ok i := by cases decode v <;> simp
  have hop : fieldOP v = 1 → ¬ (fieldOP v = 2 ∨ fieldOP v = 3) := fun h => by simp [h]
  simp only [hillegal, decode_eq_ok_iff, exists_and_left, exists_or, exists_eq', and_true]
  tauto

theorem decode_eq_construct_iff {v : Word} :
    (∃ klen nlen rc, decode v = .ok (.construct klen nlen rc)) ↔ fieldRSV v = 0 ∧ fieldOP v = 1 := by
  simp [decode_eq_ok_iff]

theorem decode_eq_transform_iff {v : Word} :
    decode v = .ok .transform ↔ fieldRSV v = 0 ∧ fieldOP v = 2 ∧ fieldZERO v = 0 := by
  simp [decode_eq_ok_iff]

theorem decode_eq_discard_iff {v : Word} :
    decode v = .ok .discard ↔ fieldRSV v = 0 ∧ fieldOP v = 3 ∧ fieldZERO v = 0 := by
  simp [decode_eq_ok_iff]

/-- A word is its fields OP, RSV and bits 31:8 (30_encoding.md R81). -/
theorem word_eq_iff_fields {v w : Word} :
    v = w ↔ fieldRSV v = fieldRSV w ∧ fieldOP v = fieldOP w ∧ fieldZERO v = fieldZERO w := by
  refine ⟨fun h => h ▸ ⟨rfl, rfl, rfl⟩, fun ⟨hrsv, hop, hzero⟩ => ?_⟩
  simp only [fieldRSV, fieldOP, fieldZERO, BitVec.toNat_eq, BitVec.extractLsb'_toNat, Nat.shiftRight_eq_div_pow]
    at hrsv hop hzero ⊢
  omega

/-- The match and mask of CONSTRUCT's row: bits 7:0 alone are compared. -/
theorem and_lowByte_eq_construct_iff {v : Word} : v &&& 0x000000FF = 0x00000001 ↔ fieldRSV v = 0 ∧ fieldOP v = 1 := by
  have hrsv : fieldRSV (v &&& 0x000000FF) = fieldRSV v &&& BitVec.allOnes 4 := BitVec.extractLsb'_and
  have hop : fieldOP (v &&& 0x000000FF) = fieldOP v &&& BitVec.allOnes 4 := BitVec.extractLsb'_and
  have hzero : fieldZERO (v &&& 0x000000FF) = fieldZERO v &&& 0 := BitVec.extractLsb'_and
  rw [word_eq_iff_fields, hrsv, hop, hzero, BitVec.and_allOnes, BitVec.and_allOnes]
  exact ⟨fun ⟨hR, hO, _⟩ => ⟨hR, hO⟩, fun ⟨hR, hO⟩ => ⟨hR, hO, BitVec.and_zero⟩⟩

/-- The mask of the rows of TRANSFORM and DISCARD compares the whole word. -/
theorem and_wholeWord_eq_iff {v c : Word} :
    v &&& 0xFFFFFFFF = c ↔ fieldRSV v = fieldRSV c ∧ fieldOP v = fieldOP c ∧ fieldZERO v = fieldZERO c := by
  have hmask : v &&& 0xFFFFFFFF = v := BitVec.and_allOnes
  rw [hmask, word_eq_iff_fields]

/-- The core's turn on an ILLEGAL word is the report of ILLEGAL_COMMAND (30_encoding.md R85). -/
theorem coreTurn_of_decode_error {s : State} (busy : s.BUSY = true) (illegal : ∃ r, decode s.PCMD = .error r) :
    coreTurn s = .next (raiseErr .illegalCommand s) := by
  obtain ⟨r, hdecode⟩ := illegal
  simp only [coreTurn, coreStep, illegalCommand, busy, hdecode, if_true]

/-- Settles O6: each clause reads one case of which words decode and which are ILLEGAL, and the masks select the fields of
those cases. -/
theorem decodeFollowsTheFields : Obligations.DecodeFollowsTheFields := by
  intro v
  refine ⟨fun hrsv => ?_, fun hrsv hop => ?_, fun hrsv hop => ⟨fun hzero => ?_, fun hzero => ?_⟩,
    fun hrsv hop => ⟨fun hzero => ?_, fun hzero => ?_⟩, fun h1 h2 h3 => ?_, ?_, ?_, ?_⟩
  · exact decode_eq_error_iff.2 (.inr (.inl hrsv))
  · exact decode_eq_ok_iff.2 ⟨hrsv, .inl ⟨hop, rfl⟩⟩
  · exact decode_eq_error_iff.2 (.inr (.inr ⟨.inl hop, hzero⟩))
  · exact decode_eq_transform_iff.2 ⟨hrsv, hop, hzero⟩
  · exact decode_eq_error_iff.2 (.inr (.inr ⟨.inr hop, hzero⟩))
  · exact decode_eq_discard_iff.2 ⟨hrsv, hop, hzero⟩
  · exact decode_eq_error_iff.2 (.inl ⟨h1, h2, h3⟩)
  · exact and_lowByte_eq_construct_iff.trans decode_eq_construct_iff.symm
  · exact and_wholeWord_eq_iff.trans decode_eq_transform_iff.symm
  · exact and_wholeWord_eq_iff.trans decode_eq_discard_iff.symm

/-- Settles O7: the three ways named are exactly those in which a word is ILLEGAL. -/
theorem illegalWordsOnlyReportAnError : Obligations.IllegalWordsOnlyReportAnError :=
  fun _ busy illegal => coreTurn_of_decode_error busy (decode_eq_error_iff.2 illegal)

end Sys2Proof.Machine

namespace Sys2Proof.Machine

/-! ## The meanings of the three commands

The outcomes of TRANSFORM that have no equation above, each once; what its XOR leaves in the window, and that the same
keystream XORed twice gives the memory back; the operands TRANSFORM reads; and the statements of 40_instance.md R100 to
R105: O10, O11, O18, O19 and O20. -/

/-- TRANSFORM of an instance with its window out of range (40_instance.md R101). -/
theorem exec_transform_of_out_of_range {s : State} (valid : s.VALID = true) (outOfRange : windowInRange s = false) :
    exec .transform s = .next (raiseErr .bufferRange s) := by
  simp [exec, execTransform, valid, outOfRange]

/-- TRANSFORM with both checks passed, when the XOR into its window answers a memory (40_instance.md R101). -/
theorem exec_transform_of_xorBytes_ok {s : State} {m : Memory} (valid : s.VALID = true) (inRange : windowInRange s = true)
    (hxor : xorBytes s.BUF (windowBase s) (keystream s.S s.R (windowLen s)) = .ok m) :
    exec .transform s = .next (succeed (streamed (ceilDiv64 (windowLen s)) m s)) := by
  simp only [exec, execTransform_eq valid inRange, hxor]

/-- TRANSFORM with both checks passed, when the XOR into its window faults (20_memory.md R57). -/
theorem exec_transform_of_xorBytes_error {s : State} {f : Fault} (valid : s.VALID = true)
    (inRange : windowInRange s = true)
    (hxor : xorBytes s.BUF (windowBase s) (keystream s.S s.R (windowLen s)) = .error f) :
    exec .transform s = .fault f := by
  simp only [exec, execTransform_eq valid inRange, hxor]

/-- The one way TRANSFORM faults: both checks pass and the XOR into its window faults. -/
theorem exec_transform_fault {s : State} {f : Fault} (h : exec .transform s = .fault f) :
    s.VALID = true ∧ windowInRange s = true ∧
      xorBytes s.BUF (windowBase s) (keystream s.S s.R (windowLen s)) = .error f := by
  cases valid : s.VALID
  · simp [exec_transform_of_not_valid valid] at h
  cases inRange : windowInRange s
  · simp [exec_transform_of_out_of_range valid inRange] at h
  cases hxor : xorBytes s.BUF (windowBase s) (keystream s.S s.R (windowLen s)) with
  | ok m => simp [exec_transform_of_xorBytes_ok valid inRange hxor] at h
  | error g =>
    rw [exec_transform_of_xorBytes_error valid inRange hxor] at h
    cases h
    exact ⟨rfl, rfl, rfl⟩

/-- A TRANSFORM that completes with both checks passed is one XOR of keystream into its window. -/
theorem xorBytes_ok_of_exec_transform {s t : State} (valid : s.VALID = true) (inRange : windowInRange s = true)
    (h : exec .transform s = .next t) :
    ∃ m, xorBytes s.BUF (windowBase s) (keystream s.S s.R (windowLen s)) = .ok m ∧
      t = succeed (streamed (ceilDiv64 (windowLen s)) m s) := by
  obtain ⟨notValid, _⟩ | ⟨_, outOfRange, _⟩ | ⟨_, _, hm⟩ := execTransform_next h
  · simp [valid] at notValid
  · simp [inRange] at outOfRange
  · exact hm

/-- Keystream XORed into a written window answers a memory. -/
theorem xorBytes_keystream_completes {m : Memory} {a len : Nat} (S : StateMatrix) (R : Byte)
    (written : windowWritten a len m) : ∃ m', xorBytes m a (keystream S R len) = .ok m' :=
  xorBytes_completes fun j hj => written j (by simpa using hj)

/-- Byte i of a window XORed with keystream: byte i mod 64 of the block of counter S[12] + i / 64
(44_stream_processor.md R178). -/
theorem read_of_xorBytes_keystream {m m' : Memory} {a : Nat} {S : StateMatrix} {R : Byte} {len i : Nat}
    (h : xorBytes m a (keystream S R len) = .ok m') (hi : i < len) :
    ∃ b, m.read (a + i) = some b ∧
      m'.read (a + i) = some (b ^^^ (keystreamBlock (S.set 12 (S[12] + BitVec.ofNat 32 (i / 64))) R)[i % 64]) := by
  obtain ⟨hwindow, _⟩ := xorBytes_ok h
  rw [← keystream_getElem S R len i hi]
  exact hwindow i (by simpa using hi)

/-- The XOR of the same bytes into the same place a second time completes and gives the memory back: byte for byte, and a
canonical memory as data. -/
theorem xorBytes_twice {m m₁ : Memory} {a : Nat} {ks : List Byte} (h : xorBytes m a ks = .ok m₁) :
    ∃ m₂, xorBytes m₁ a ks = .ok m₂ ∧ (∀ x, m₂.read x = m.read x) ∧ (m.wf = true → m₂ = m) := by
  obtain ⟨hwindow, hrest, hwf, _⟩ := xorBytes_ok h
  have written : ∀ j, j < ks.length → (m₁.read (a + j)).isSome := fun j hj => by
    obtain ⟨b, _, hb⟩ := hwindow j hj
    simp [hb]
  obtain ⟨m₂, h₂⟩ := xorBytes_completes written
  obtain ⟨hwindow₂, hrest₂, hwf₂, _⟩ := xorBytes_ok h₂
  have hread : ∀ x, m₂.read x = m.read x := by
    intro x
    by_cases hx : x < a ∨ a + ks.length ≤ x
    · rw [hrest₂ x hx, hrest x hx]
    · obtain ⟨j, rfl⟩ : ∃ j, x = a + j := ⟨x - a, by omega⟩
      have hj : j < ks.length := by omega
      obtain ⟨b, hb, hb₁⟩ := hwindow j hj
      obtain ⟨b₁, hb₁', hb₂⟩ := hwindow₂ j hj
      obtain rfl : b ^^^ ks[j] = b₁ := Option.some.inj (hb₁.symm.trans hb₁')
      rw [hb₂, hb, BitVec.xor_assoc, BitVec.xor_self, BitVec.xor_zero]
  exact ⟨m₂, h₂, hread, fun hm => Memory.ext_of_wf (hwf₂ (hwf hm)) hm hread⟩

/-- CONSTRUCT leaves equal instances when the staging registers are equal (40_instance.md R105). -/
theorem exec_construct_congr {s s' : State} (klen nlen rc : Nat) (hKEY : s.KEY = s'.KEY) (hNONCE : s.NONCE = s'.NONCE)
    (hCTR : s.CTR_INIT = s'.CTR_INIT) :
    ∃ t t', exec (.construct klen nlen rc) s = .next t ∧ exec (.construct klen nlen rc) s' = .next t' ∧
      t.S = t'.S ∧ t.R = t'.R ∧ t.VALID = t'.VALID ∧ t.ERR = t'.ERR := by
  cases hl : legalParameters klen nlen rc
  · exact ⟨_, _, exec_construct_of_illegal hl s, exec_construct_of_illegal hl s', rfl, rfl, rfl, rfl⟩
  · have hS : instanceWords s.KEY s.CTR_INIT s.NONCE = instanceWords s'.KEY s'.CTR_INIT s'.NONCE := by
      rw [hKEY, hNONCE, hCTR]
    exact ⟨_, _, exec_construct_of_legal hl s, exec_construct_of_legal hl s', hS, rfl, rfl, rfl⟩

/-- Two states that agree on all that TRANSFORM reads (40_instance.md R105). -/
structure TransformOperandsAgree (s s' : State) : Prop where
  cfg : s.cfg = s'.cfg
  S : s.S = s'.S
  R : s.R = s'.R
  VALID : s.VALID = s'.VALID
  BUF_BASE : s.BUF_BASE = s'.BUF_BASE
  BUF_LEN : s.BUF_LEN = s'.BUF_LEN
  BUF : s.BUF = s'.BUF

namespace TransformOperandsAgree

variable {s s' : State} (h : TransformOperandsAgree s s')
include h

theorem windowInRange_eq : windowInRange s = windowInRange s' := by
  rw [Bool.eq_iff_iff, windowInRange_iff, windowInRange_iff, h.BUF_LEN, h.BUF_BASE, h.cfg]

theorem xorBytes_eq : xorBytes s.BUF (windowBase s) (keystream s.S s.R (windowLen s)) =
    xorBytes s'.BUF (windowBase s') (keystream s'.S s'.R (windowLen s')) := by
  simp only [windowBase, windowLen, h.BUF_BASE, h.BUF_LEN, h.BUF, h.S, h.R]

/-- A TRANSFORM that completes in one state completes in the other, with an equal result. -/
theorem exec_transform_next {t : State} (ht : exec .transform s = .next t) :
    ∃ t', exec .transform s' = .next t' ∧
      t.S = t'.S ∧ t.BUF = t'.BUF ∧ t.R = t'.R ∧ t.VALID = t'.VALID ∧ t.ERR = t'.ERR := by
  obtain ⟨notValid, rfl⟩ | ⟨valid, outOfRange, rfl⟩ | ⟨valid, inRange, m, hm, rfl⟩ := execTransform_next ht
  · exact ⟨_, exec_transform_of_not_valid (h.VALID ▸ notValid), h.S, h.BUF, h.R, h.VALID, rfl⟩
  · exact ⟨_, exec_transform_of_out_of_range (h.VALID ▸ valid) (h.windowInRange_eq ▸ outOfRange),
      h.S, h.BUF, h.R, h.VALID, rfl⟩
  · have hS : (streamed (ceilDiv64 (windowLen s)) m s).S = (streamed (ceilDiv64 (windowLen s')) m s').S := by
      simp only [streamed_S, windowLen, h.S, h.BUF_LEN]
    exact ⟨_, exec_transform_of_xorBytes_ok (h.VALID ▸ valid) (h.windowInRange_eq ▸ inRange) (h.xorBytes_eq ▸ hm),
      hS, rfl, h.R, h.VALID, rfl⟩

/-- A TRANSFORM that faults in one state faults in the other, with the same fault. -/
theorem exec_transform_fault {f : Fault} (hf : exec .transform s = .fault f) : exec .transform s' = .fault f := by
  obtain ⟨valid, inRange, hxor⟩ := Machine.exec_transform_fault hf
  exact exec_transform_of_xorBytes_error (h.VALID ▸ valid) (h.windowInRange_eq ▸ inRange) (h.xorBytes_eq ▸ hxor)

end TransformOperandsAgree

/-- One keystream XORed into two windows with identical bytes, wherever they lie, leaves identical bytes. -/
theorem read_of_xorBytes_congr {m m' n n' : Memory} {a a' i : Nat} {ks : List Byte}
    (hm : xorBytes m a ks = .ok n) (hm' : xorBytes m' a' ks = .ok n') (hi : i < ks.length)
    (hread : m.read (a + i) = m'.read (a' + i)) : n.read (a + i) = n'.read (a' + i) := by
  obtain ⟨hwindow, _⟩ := xorBytes_ok hm
  obtain ⟨hwindow', _⟩ := xorBytes_ok hm'
  obtain ⟨b, hb, hn⟩ := hwindow i hi
  obtain ⟨b', hb', hn'⟩ := hwindow' i hi
  obtain rfl : b = b' := Option.some.inj (hb.symm.trans (hread.trans hb'))
  exact hn.trans hn'.symm

/-- Settles O10: the two clauses are the two values of the parameter check. -/
theorem constructBuildsOrDiscardsTheInstance : Obligations.ConstructBuildsOrDiscardsTheInstance := by
  intro s klen nlen rc
  refine ⟨fun hklen hnlen hrc => ?_, fun illegal => ?_⟩
  · exact exec_construct_of_legal ((legalParameters_iff klen nlen rc).2 ⟨hklen, hnlen, hrc⟩) s
  · exact exec_construct_of_illegal (Bool.eq_false_iff.2 (mt (legalParameters_iff klen nlen rc).1 illegal)) s

/-- Settles O20: the cleared instance has BUSY, VALID and ERR zero, so STATUS is zero and the next TRANSFORM fails its first
check. -/
theorem discardEndsTheInstance : Obligations.DiscardEndsTheInstance :=
  fun s =>
    have hstatus : statusWord (succeed (clearInstance s)) = 0 := by simp [statusWord, zext32, errBits]
    ⟨_, exec_discard s, rfl, hstatus, rfl, rfl, exec_transform_of_not_valid rfl⟩

/-- Settles O11: the two checks, and then the XOR of the keystream, which a written window lets complete. -/
theorem transformFollowsItsRule : Obligations.TransformFollowsItsRule := by
  intro s
  refine ⟨exec_transform_of_not_valid, fun valid hlen hout => ?_, fun valid hin written => ?_⟩
  · have outOfRange : ¬ windowInRange s = true := mt (windowInRange_iff s).1 (by omega)
    exact exec_transform_of_out_of_range valid (Bool.eq_false_iff.2 outOfRange)
  · have inRange : windowInRange s = true := (windowInRange_iff s).2 hin
    obtain ⟨m, hm⟩ := xorBytes_keystream_completes s.S s.R written
    obtain ⟨_, hrest, _⟩ := xorBytes_ok hm
    refine ⟨m, exec_transform_of_xorBytes_ok valid inRange hm, fun i hi b hb => ?_, by simpa using hrest⟩
    obtain ⟨b', hb', hread⟩ := read_of_xorBytes_keystream hm hi
    obtain rfl : b' = b := Option.some.inj (hb'.symm.trans hb)
    exact hread

/-- Settles O18: both TRANSFORMs XOR the one keystream of the staged instance into the one window. -/
theorem transformingTwiceGivesTheBufferBack : Obligations.TransformingTwiceGivesTheBufferBack := by
  intro s rc hrc hin written
  have legal : legalParameters 32 12 rc = true := (legalParameters_iff 32 12 rc).2 ⟨rfl, rfl, hrc⟩
  have inRange : windowInRange s = true := (windowInRange_iff s).2 hin
  obtain ⟨m₁, h₁⟩ :=
    xorBytes_keystream_completes (instanceWords s.KEY s.CTR_INIT s.NONCE) (BitVec.ofNat 8 rc) written
  obtain ⟨m₂, h₂, hread, hdata⟩ := xorBytes_twice h₁
  exact ⟨_, _, _, _, exec_construct_of_legal legal s, exec_transform_of_xorBytes_ok rfl inRange h₁,
    exec_construct_of_legal legal _, exec_transform_of_xorBytes_ok rfl inRange h₂, hread, hdata⟩

/-- Settles O19: each command's outcome is a function of its operands, and the XOR of one keystream of the place as well. -/
theorem commandsReadOnlyTheirOperands : Obligations.CommandsReadOnlyTheirOperands := by
  refine ⟨fun s s' klen nlen rc => exec_construct_congr klen nlen rc,
    fun s s' hcfg hS hR hVALID hBASE hLEN hBUF => ?_,
    fun s s' t t' hS hR valid valid' hLEN hin hin' hbytes ht ht' => ?_⟩
  · have agree : TransformOperandsAgree s s' := ⟨hcfg, hS, hR, hVALID, hBASE, hLEN, hBUF⟩
    exact ⟨fun _ => agree.exec_transform_next, fun _ => agree.exec_transform_fault⟩
  · obtain ⟨m, hm, rfl⟩ := xorBytes_ok_of_exec_transform valid ((windowInRange_iff s).2 (.inr hin)) ht
    obtain ⟨m', hm', rfl⟩ := xorBytes_ok_of_exec_transform valid' ((windowInRange_iff s').2 (.inr hin')) ht'
    have hlen : windowLen s' = windowLen s := congrArg BitVec.toNat hLEN.symm
    rw [← hS, ← hR, hlen] at hm'
    refine ⟨?_, fun i hi => read_of_xorBytes_congr hm hm' (hi.trans_eq (keystream_length ..).symm) (hbytes i hi)⟩
    show (streamed (ceilDiv64 (windowLen s)) m s).S = (streamed (ceilDiv64 (windowLen s')) m' s').S
    simp only [streamed_S, hlen, hS]

end Sys2Proof.Machine

namespace Sys2Proof.Machine

/-! ## The state initializer

The 16 words of 41_state_initializer.md R120: O8. -/

/-- 41_state_initializer.md R120, R122: INIT_STATE lays out the loaded key and nonce words as CONSTRUCT lays out the
staging registers. -/
theorem initState_eq_instanceWords (key : Vector Byte 32) (nonce : Vector Byte 12) (ctr : Word) :
    initState key nonce ctr =
      instanceWords (.ofFn fun j => le32 key (4 * j)) ctr (.ofFn fun j => le32 nonce (4 * j)) := by
  simp [initState, instanceWords]

/-- 41_state_initializer.md R120: words 0 to 3 are the constants, whatever is staged. -/
theorem constantsHeld_instanceWords (KEY : Vector Word 8) (ctr : Word) (NONCE : Vector Word 3) :
    constantsHeld (instanceWords KEY ctr NONCE) := ⟨rfl, rfl, rfl, rfl⟩

/-- Settles O8: each word is the one `instanceWords` puts there, a loaded word of the key or of the nonce. -/
theorem initStateHasItsLayout : Obligations.InitStateHasItsLayout := by
  intro key nonce ctr
  rw [initState_eq_instanceWords]
  refine ⟨constantsHeld_instanceWords _ _ _, fun j hj => ?_, instanceWords_counter _ _ _, fun j hj => ?_⟩
  · rw [instanceWords_key _ _ _ hj, Vector.getElem_ofFn]
  · rw [instanceWords_nonce _ _ _ hj, Vector.getElem_ofFn]

end Sys2Proof.Machine

namespace Sys2Proof.Machine

/-! ## The quarter-round engine

The words of a quadruple read and written as one value, quarter rounds at disjoint quadruples, what a run of them leaves
at each, and the inverse of QR: O31, O32, O33 and O35. -/

/-- The four words of a quadruple, in their roles (42_quarter_round.md R131). -/
def readQuad (W : StateMatrix) (q : Quad) : Word × Word × Word × Word := (W[q.a], W[q.b], W[q.c], W[q.d])

/-- The four indices of a quadruple. -/
def Quad.indices (q : Quad) : List (Fin 16) := [q.a, q.b, q.c, q.d]

/-- QR on the four words as one value, the form of 42_quarter_round.md R139. -/
def qrWords (x : Word × Word × Word × Word) : Word × Word × Word × Word := qr x.1 x.2.1 x.2.2.1 x.2.2.2

/-- QR_AT reads the quadruple, applies QR and writes it back (42_quarter_round.md R131). -/
theorem qrAt_eq_writeQuad (W : StateMatrix) (q : Quad) : qrAt W q = writeQuad W q (qrWords (readQuad W q)) := rfl

theorem mem_indices {q : Quad} {j : Fin 16} : j ∈ q.indices ↔ j = q.a ∨ j = q.b ∨ j = q.c ∨ j = q.d := by
  simp [Quad.indices]

theorem stateMatrix_ext {V W : StateMatrix} (h : ∀ j : Fin 16, V[j] = W[j]) : V = W :=
  Vector.ext fun j hj => h ⟨j, hj⟩

/-! ### Writing one quadruple -/

theorem getElem_writeQuad (W : StateMatrix) (q : Quad) (r : Word × Word × Word × Word) (j : Fin 16) :
    (writeQuad W q r)[j] = if j = q.d then r.2.2.2 else if j = q.c then r.2.2.1 else
      if j = q.b then r.2.1 else if j = q.a then r.1 else W[j] := by
  simp only [Fin.getElem_fin, writeQuad_getElem, Fin.val_inj, eq_comm (b := j)]

/-- A word outside the quadruple stays. -/
theorem getElem_writeQuad_of_notMem {q : Quad} {j : Fin 16} (h : j ∉ q.indices) (W : StateMatrix)
    (r : Word × Word × Word × Word) : (writeQuad W q r)[j] = W[j] := by
  simp only [mem_indices, not_or] at h
  obtain ⟨ha, hb, hc, hd⟩ := h
  simp only [getElem_writeQuad, ha, hb, hc, hd, if_false]

/-- A word after the write depends on the matrix before only outside the quadruple. -/
theorem getElem_writeQuad_congr {V W : StateMatrix} {q : Quad} {j : Fin 16} (h : j ∉ q.indices → V[j] = W[j])
    (r : Word × Word × Word × Word) : (writeQuad V q r)[j] = (writeQuad W q r)[j] := by
  by_cases hj : j ∈ q.indices
  · obtain rfl | rfl | rfl | rfl := mem_indices.1 hj <;> simp only [getElem_writeQuad, if_true]
  · rw [getElem_writeQuad_of_notMem hj, getElem_writeQuad_of_notMem hj, h hj]

/-- Distinct indices: each of the four words is the one written in its role. -/
theorem readQuad_writeQuad {q : Quad} (hq : q.indices.Nodup) (W : StateMatrix) (r : Word × Word × Word × Word) :
    readQuad (writeQuad W q r) q = r := by
  simp only [Quad.indices, List.nodup_cons, List.mem_cons, List.not_mem_nil, or_false, not_or] at hq
  obtain ⟨⟨hab, hac, had⟩, ⟨hbc, hbd⟩, hcd, _⟩ := hq
  simp only [readQuad, getElem_writeQuad, hab, hac, had, hbc, hbd, hcd, if_true, if_false]

theorem readQuad_writeQuad_of_disjoint {p q : Quad} (h : p.indices.Disjoint q.indices) (W : StateMatrix)
    (r : Word × Word × Word × Word) : readQuad (writeQuad W p r) q = readQuad W q := by
  have outside {j : Fin 16} (hj : j ∈ q.indices) : (writeQuad W p r)[j] = W[j] :=
    getElem_writeQuad_of_notMem (fun hp => h hp hj) W r
  simp only [readQuad, outside, mem_indices, true_or, or_true]

/-- The words of a quadruple written over any others give the matrix they come from. -/
theorem writeQuad_writeQuad_readQuad (W : StateMatrix) (q : Quad) (r : Word × Word × Word × Word) :
    writeQuad (writeQuad W q r) q (readQuad W q) = W := by
  refine stateMatrix_ext fun j => ?_
  rw [getElem_writeQuad]
  split_ifs with hd hc hb ha
  · rw [hd]; rfl
  · rw [hc]; rfl
  · rw [hb]; rfl
  · rw [ha]; rfl
  · exact getElem_writeQuad_of_notMem (by simp only [mem_indices, ha, hb, hc, hd, or_false, not_false_iff]) W r

theorem writeQuad_comm {p q : Quad} (h : p.indices.Disjoint q.indices) (W : StateMatrix)
    (r s : Word × Word × Word × Word) :
    writeQuad (writeQuad W p r) q s = writeQuad (writeQuad W q s) p r := by
  refine stateMatrix_ext fun j => ?_
  by_cases hp : j ∈ p.indices
  · have hq : j ∉ q.indices := h hp
    rw [getElem_writeQuad_of_notMem hq]
    exact getElem_writeQuad_congr (fun _ => (getElem_writeQuad_of_notMem hq W s).symm) r
  · rw [getElem_writeQuad_of_notMem hp]
    exact getElem_writeQuad_congr (fun _ => getElem_writeQuad_of_notMem hp W r) s

/-! ### Quarter rounds at disjoint quadruples -/

theorem readQuad_qrAt {q : Quad} (hq : q.indices.Nodup) (W : StateMatrix) :
    readQuad (qrAt W q) q = qrWords (readQuad W q) :=
  readQuad_writeQuad hq W _

theorem readQuad_qrAt_of_disjoint {p q : Quad} (h : p.indices.Disjoint q.indices) (W : StateMatrix) :
    readQuad (qrAt W p) q = readQuad W q :=
  readQuad_writeQuad_of_disjoint h W _

theorem qrAt_comm {p q : Quad} (h : p.indices.Disjoint q.indices) (W : StateMatrix) :
    qrAt (qrAt W p) q = qrAt (qrAt W q) p := by
  rw [qrAt_eq_writeQuad (qrAt W p) q, qrAt_eq_writeQuad (qrAt W q) p, readQuad_qrAt_of_disjoint h,
    readQuad_qrAt_of_disjoint h.symm]
  exact writeQuad_comm h W _ _

theorem readQuad_foldl_qrAt_of_disjoint {q : Quad} {qs : List Quad} (h : ∀ p ∈ qs, p.indices.Disjoint q.indices)
    (W : StateMatrix) : readQuad (qs.foldl qrAt W) q = readQuad W q := by
  induction qs generalizing W with
  | nil => rfl
  | cons p ps ih =>
    obtain ⟨hp, hps⟩ := List.forall_mem_cons.1 h
    exact (ih hps (qrAt W p)).trans (readQuad_qrAt_of_disjoint hp W)

/-- 42_quarter_round.md R137: a run of quarter rounds whose quadruples share no index leaves at each of them QR of the
words before. -/
theorem readQuad_foldl_qrAt {q : Quad} {qs : List Quad} (h : (qs.flatMap Quad.indices).Nodup) (hq : q ∈ qs)
    (W : StateMatrix) : readQuad (qs.foldl qrAt W) q = qrWords (readQuad W q) := by
  obtain ⟨distinct, disjoint⟩ := List.nodup_flatMap.1 h
  clear h
  induction qs generalizing W with
  | nil => cases hq
  | cons p ps ih =>
    obtain ⟨hp, hps⟩ := List.forall_mem_cons.1 distinct
    obtain ⟨apart, hpairs⟩ := List.pairwise_cons.1 disjoint
    rw [List.foldl_cons]
    obtain rfl | hq := List.mem_cons.1 hq
    · rw [readQuad_foldl_qrAt_of_disjoint fun p' hp' => (apart p' hp').symm, readQuad_qrAt hp]
    · rw [ih hq _ hps hpairs, readQuad_qrAt_of_disjoint (apart q hq)]

/-- 42_quarter_round.md R134: quarter rounds whose quadruples share no index may be run in any order. -/
theorem foldl_qrAt_eq_of_perm {qs ps : List Quad} (h : (ps.flatMap Quad.indices).Nodup) (perm : qs.Perm ps)
    (W : StateMatrix) : qs.foldl qrAt W = ps.foldl qrAt W := by
  have disjoint := (List.nodup_flatMap.1 h).2
  have apart {p q : Quad} (hp : p ∈ ps) (hq : q ∈ ps) (hne : p ≠ q) : p.indices.Disjoint q.indices :=
    haveI : Std.Symm (Function.onFun List.Disjoint Quad.indices) := ⟨fun _ _ h => List.Disjoint.symm h⟩
    disjoint.forall hp hq hne
  refine (perm.symm.foldl_eq' (fun p hp q hq V => ?_) W).symm
  by_cases hne : p = q
  · rw [hne]
  · exact qrAt_comm (apart hp hq hne) V

/-- The column quadruples share no index (42_quarter_round.md R132). -/
theorem columnQuads_nodup : (columnQuads.flatMap Quad.indices).Nodup := by decide

/-- The diagonal quadruples share no index (42_quarter_round.md R133). -/
theorem diagonalQuads_nodup : (diagonalQuads.flatMap Quad.indices).Nodup := by decide

/-- 42_quarter_round.md R137: the quadruple of lane L of COLUMN_PASS. -/
theorem columnLane_mem : ∀ L : Fin 4,
    (⟨⟨L, by omega⟩, ⟨4 + L, by omega⟩, ⟨8 + L, by omega⟩, ⟨12 + L, by omega⟩⟩ : Quad) ∈ columnQuads := by decide

/-- 42_quarter_round.md R137: the quadruple of lane L of DIAGONAL_PASS. -/
theorem diagonalLane_mem : ∀ L : Fin 4,
    (⟨⟨L, by omega⟩, ⟨4 + (L + 1) % 4, by omega⟩, ⟨8 + (L + 2) % 4, by omega⟩, ⟨12 + (L + 3) % 4, by omega⟩⟩ : Quad) ∈
      diagonalQuads := by decide

/-! ### Undoing a quarter round -/

/-- Rotating on to 32 gives the word back. -/
theorem rotl32_rotl32 (x : Word) {m n : Nat} (hm : 0 < m) (hn : 0 < n) (h : m + n = 32) :
    rotl32 (rotl32 x m) n = x := by
  apply BitVec.eq_of_getLsbD_eq
  intro i hi
  have hback : ((i + 32 - n) % 32 + 32 - m) % 32 = i := by omega
  rw [getLsbD_rotl32 _ (by omega) hi, getLsbD_rotl32 _ (by omega) (Nat.mod_lt _ (by decide)), hback]

/-- Half of QR: its six steps with one pair of rotation distances (42_quarter_round.md R130). -/
def qrHalf (m n : Nat) : Word × Word × Word × Word → Word × Word × Word × Word
  | (a, b, c, d) =>
    let a := add32 a b; let d := rotl32 (d ^^^ a) m
    let c := add32 c d; let b := rotl32 (b ^^^ c) n
    (a, b, c, d)

/-- The steps of `qrHalf m n` undone, last first (42_quarter_round.md R139). -/
def qrHalfInv (m n : Nat) : Word × Word × Word × Word → Word × Word × Word × Word
  | (a, b, c, d) =>
    let b := rotl32 b (32 - n) ^^^ c; let c := c - d
    let d := rotl32 d (32 - m) ^^^ a; let a := a - b
    (a, b, c, d)

/-- QR is its half at distances 16 and 12, then its half at 8 and 7 (42_quarter_round.md R130). -/
theorem qrWords_eq_qrHalf : qrWords = qrHalf 8 7 ∘ qrHalf 16 12 := rfl

theorem qrHalf_bijective {m n : Nat} (hm : 0 < m) (hm' : m < 32) (hn : 0 < n) (hn' : n < 32) :
    Function.Bijective (qrHalf m n) := by
  have forth (x : Word) {k : Nat} (hk : 0 < k) (hk' : k < 32) : rotl32 (rotl32 x k) (32 - k) = x :=
    rotl32_rotl32 x hk (by omega) (by omega)
  have back (x : Word) {k : Nat} (hk : 0 < k) (hk' : k < 32) : rotl32 (rotl32 x (32 - k)) k = x :=
    rotl32_rotl32 x (by omega) hk (by omega)
  refine Function.bijective_iff_has_inverse.2 ⟨qrHalfInv m n, ?_, ?_⟩
  · rintro ⟨a, b, c, d⟩
    simp [qrHalf, qrHalfInv, add32, forth, hm, hm', hn, hn']
  · rintro ⟨a, b, c, d⟩
    simp [qrHalf, qrHalfInv, add32, back, hm, hm', hn, hn']

theorem qrWords_bijective : Function.Bijective qrWords := by
  rw [qrWords_eq_qrHalf]
  exact (qrHalf_bijective (by decide) (by decide) (by decide) (by decide)).comp
    (qrHalf_bijective (by decide) (by decide) (by decide) (by decide))

/-- QR_AT at distinct indices can be undone because QR can: the words before are recovered and written back. -/
theorem qrAt_bijective {q : Quad} (hq : q.indices.Nodup) : Function.Bijective (qrAt · q) := by
  constructor
  · intro V W (h : qrAt V q = qrAt W q)
    have hwords : readQuad V q = readQuad W q :=
      qrWords_bijective.injective (by rw [← readQuad_qrAt hq, ← readQuad_qrAt hq, h])
    calc V = writeQuad (qrAt V q) q (readQuad V q) := (writeQuad_writeQuad_readQuad V q _).symm
      _ = writeQuad (qrAt W q) q (readQuad W q) := by rw [h, hwords]
      _ = W := writeQuad_writeQuad_readQuad W q _
  · intro W
    obtain ⟨x, hx⟩ := qrWords_bijective.surjective (readQuad W q)
    refine ⟨writeQuad W q x, ?_⟩
    calc qrAt (writeQuad W q x) q = writeQuad (writeQuad W q x) q (readQuad W q) := by
          rw [qrAt_eq_writeQuad, readQuad_writeQuad hq, hx]
      _ = W := writeQuad_writeQuad_readQuad W q x

theorem foldl_qrAt_bijective {qs : List Quad} (h : ∀ q ∈ qs, q.indices.Nodup) :
    Function.Bijective fun W => qs.foldl qrAt W := by
  induction qs with
  | nil => exact Function.bijective_id
  | cons q qs ih =>
    obtain ⟨hq, hqs⟩ := List.forall_mem_cons.1 h
    exact (ih hqs).comp (qrAt_bijective hq)

theorem columnPass_bijective : Function.Bijective columnPass :=
  foldl_qrAt_bijective (List.nodup_flatMap.1 columnQuads_nodup).1

theorem diagonalPass_bijective : Function.Bijective diagonalPass :=
  foldl_qrAt_bijective (List.nodup_flatMap.1 diagonalQuads_nodup).1

theorem doubleRound_bijective : Function.Bijective doubleRound := by
  have hcomp : doubleRound = diagonalPass ∘ columnPass := funext fun W => by rw [doubleRound, Function.comp_apply]
  exact hcomp ▸ diagonalPass_bijective.comp columnPass_bijective

/-! ### The statements of 42_quarter_round.md -/

/-- Settles O31: the four words read back are the ones written, and a write stays inside its quadruple. -/
theorem quarterRoundAtTouchesFourWords : Obligations.QuarterRoundAtTouchesFourWords := by
  intro W q hab hac had hbc hbd hcd
  have hq : q.indices.Nodup := by simp [Quad.indices, hab, hac, had, hbc, hbd, hcd]
  refine ⟨readQuad_qrAt hq W, fun j ha hb hc hd => ?_⟩
  have hj : j ∉ q.indices := by simp [mem_indices, ha, hb, hc, hd]
  exact getElem_writeQuad_of_notMem hj W _

/-- Settles O32: the quadruple of each lane is one of the pass's, and those share no index. -/
theorem passesActLaneByLane : Obligations.PassesActLaneByLane :=
  fun W L h => ⟨readQuad_foldl_qrAt columnQuads_nodup (columnLane_mem ⟨L, h⟩) W,
    readQuad_foldl_qrAt diagonalQuads_nodup (diagonalLane_mem ⟨L, h⟩) W⟩

/-- Settles O33: quarter rounds of one pass commute, since its quadruples share no index. -/
theorem orderWithinAPassDoesNotMatter : Obligations.OrderWithinAPassDoesNotMatter :=
  fun W _ => ⟨fun perm => foldl_qrAt_eq_of_perm columnQuads_nodup perm W,
    fun perm => foldl_qrAt_eq_of_perm diagonalQuads_nodup perm W⟩

/-- Settles O35: each half of QR is undone step by step, and everything else is a composition of quarter rounds. -/
theorem mixingIsBijective : Obligations.MixingIsBijective :=
  ⟨qrWords_bijective, columnPass_bijective, diagonalPass_bijective, fun R => doubleRound_bijective.iterate (R.toNat / 2)⟩

end Sys2Proof.Machine

namespace Sys2Proof.Machine

/-! ## The block producer

The feed-forward word by word, the serialization byte by byte and as a whole, and the state after n blocks
(43_block_producer.md R150 to R155): O36, O37 and O39. -/

@[simp] theorem getElem_feedForward (W S : StateMatrix) {i : Nat} (h : i < 16) :
    (feedForward W S)[i] = W[i] + S[i] :=
  Vector.getElem_zipWith h

theorem getElem_serialize (W : StateMatrix) {i k : Nat} (hi : i < 16) (hk : k < 4) :
    (serialize W)[4 * i + k] = byteOf W[i] k := by
  have hword : (4 * i + k) / 4 = i := by omega
  have hbyte : (4 * i + k) % 4 = k := by omega
  simp [serialize, hword, hbyte]

theorem vector_toList_eq_ofFn {α : Type} {n : Nat} (v : Vector α n) : v.toList = List.ofFn fun i : Fin n => v[i] := by
  rw [← Vector.toList_ofFn]
  exact congrArg Vector.toList Vector.ofFn_getElem.symm

/-- The four bytes of a block that start at place 4i are those of word i. -/
theorem ofFn_getElem_serialize (W : StateMatrix) (i : Fin 16) :
    (List.ofFn fun k : Fin 4 => (serialize W)[4 * i.val + k.val]) = (le32Bytes W[i]).toList := by
  rw [vector_toList_eq_ofFn]
  refine congrArg List.ofFn (funext fun k => ?_)
  exact (getElem_serialize W i.isLt k.isLt).trans (getElem_le32Bytes W[i] k.isLt).symm

/-- A block is the bytes of its words one after another, word 0 first: its 64 places are 16 groups of 4. -/
theorem serialize_toList (W : StateMatrix) :
    (serialize W).toList = W.toList.flatMap fun w => (le32Bytes w).toList := by
  calc (serialize W).toList = List.ofFn fun j : Fin (4 * 16) => (serialize W)[j] := vector_toList_eq_ofFn _
    _ = (List.ofFn fun i : Fin 16 => List.ofFn fun k : Fin 4 => (serialize W)[4 * i.val + k.val]).flatten :=
        List.ofFn_mul' _
    _ = (List.ofFn fun i : Fin 16 => (le32Bytes W[i]).toList).flatten := by simp only [ofFn_getElem_serialize]
    _ = W.toList.flatMap fun w => (le32Bytes w).toList := by
        rw [vector_toList_eq_ofFn W, List.flatMap, List.map_ofFn, Function.comp_def]

/-- n blocks advance the counter by n mod 2^32 and change nothing else. -/
theorem afterBlock_iterate (n : Nat) (s : State) :
    afterBlock^[n] s = { s with S := s.S.set 12 (s.S[12] + BitVec.ofNat 32 n) } := by
  induction n generalizing s with
  | zero => simp
  | succ n ih => simp only [Function.iterate_succ_apply, ih, afterBlock, block, counterAdvance, set_counter_shift]

/-- Whole turns of the 32-bit counter give the state back. -/
theorem afterBlock_iterate_of_wraps {p : Nat} (h : p % 2 ^ 32 = 0) (s : State) : afterBlock^[p] s = s := by
  have hp : BitVec.ofNat 32 p = 0#32 := BitVec.eq_of_toNat_eq (by simpa using h)
  simp [afterBlock_iterate, hp]

/-- Settles O36: both operations place by place, and the 64 bytes as the 16 words' groups of four. -/
theorem feedForwardThenSerialize : Obligations.FeedForwardThenSerialize :=
  ⟨fun W S _ h => getElem_feedForward W S h, fun W _ _ hi hk => getElem_serialize W hi hk, serialize_toList⟩

/-- Settles O37: the block and the state after it are BLOCK's two parts, and the state differs in word 12 alone. -/
theorem blockAdvancesTheCounter : Obligations.BlockAdvancesTheCounter := by
  intro s
  refine ⟨rfl, rfl, fun j h hj => ?_, fun h => ?_⟩
  · exact Vector.getElem_set_ne (by decide) h hj.symm
  · have hnext : (block s).2.S[12] = s.S[12] + 1 := Vector.getElem_set_self (by decide)
    rw [hnext, h]
    rfl

/-- Settles O39: p blocks give the state back, and n blocks after them go as n blocks before. -/
theorem keystreamRepeatsAfterTheCounterWraps : Obligations.KeystreamRepeatsAfterTheCounterWraps := by
  intro s n p h
  have hback : afterBlock^[p] s = s := afterBlock_iterate_of_wraps h s
  exact ⟨hback, by rw [Function.iterate_add_apply, hback]⟩

end Sys2Proof.Machine

namespace Sys2Proof.Machine

/-! ## The stream processor

XOR_WINDOW as one XOR of bytes, the instance whose counter alone moves, and STREAM and TRANSFORM of length 0
(44_stream_processor.md R171, R174, R178): O12, O14 and O15. -/

/-- Only word 12 of INIT_STATE depends on the counter (41_state_initializer.md R120). -/
@[simp] theorem initState_set_counter (key : Vector Byte 32) (nonce : Vector Byte 12) (ctr c : Word) :
    (initState key nonce ctr).set 12 c = initState key nonce c := by
  simp only [initState_eq_instanceWords, instanceWords_set_counter]

@[simp] theorem initState_counter (key : Vector Byte 32) (nonce : Vector Byte 12) (ctr : Word) :
    (initState key nonce ctr)[12] = ctr := by
  simp only [initState_eq_instanceWords, instanceWords_counter]

/-- XOR_WINDOW when the XOR of its bytes answers a memory (44_stream_processor.md R171). -/
theorem xorWindow_of_xorBytes_ok {a n : Nat} {KS : Vector Byte 64} {s : State} {m : Memory}
    (h : xorBytes s.BUF a (KS.toList.take n) = .ok m) : xorWindow a KS n s = .ok { s with BUF := m } := by
  simp only [xorWindow, h]

/-- XOR_WINDOW when the XOR of its bytes faults (20_memory.md R57). -/
theorem xorWindow_of_xorBytes_error {a n : Nat} {KS : Vector Byte 64} {s : State} {f : Fault}
    (h : xorBytes s.BUF a (KS.toList.take n) = .error f) : xorWindow a KS n s = .error f := by
  simp only [xorWindow, h]

/-- STREAM of length 0 has no turn of its loop to take (44_stream_processor.md R174). -/
theorem stream_of_length_zero (base : Nat) (s : State) : stream base 0 s = .ok s := by
  have noBlocks : ceilDiv64 0 = 0 := by decide
  simp only [stream, noBlocks, streamFrom]

/-- TRANSFORM of an empty window: it is always in range, and its STREAM does nothing (44_stream_processor.md R174). -/
theorem exec_transform_of_empty_window {s : State} (valid : s.VALID = true) (empty : windowLen s = 0) :
    exec .transform s = .next (succeed s) := by
  have inRange : windowInRange s = true := (windowInRange_iff s).2 (.inl empty)
  simp [exec, execTransform, valid, inRange, empty, stream_of_length_zero]

/-- Settles O12: the completed TRANSFORM is one XOR of keystream, whose blocks are those of the initial state with its
counter moved. -/
theorem transformHasItsClosedForm : Obligations.TransformHasItsClosedForm := by
  intro s t key nonce c valid hS hin ht
  obtain ⟨m, hm, rfl⟩ := xorBytes_ok_of_exec_transform valid ((windowInRange_iff s).2 hin) ht
  obtain ⟨_, hrest, _⟩ := xorBytes_ok hm
  rw [keystream_length] at hrest
  refine ⟨fun i hi => ?_, ?_, hrest, rfl, valid⟩
  · have hbyte := read_of_xorBytes_keystream hm hi
    simp only [hS, initState_counter, initState_set_counter] at hbyte
    exact hbyte
  · simp only [succeed_S, streamed_S, hS, initState_counter, initState_set_counter, ceilDiv64, windowLen]

/-- Settles O14: the prefix has n bytes, and their XOR answers a memory or faults at the first unwritten byte. -/
theorem xorWindowXorsAPrefix : Obligations.XorWindowXorsAPrefix := by
  intro a KS n s _ hn
  have hlen : (KS.toList.take n).length = n := by simp [hn]
  refine ⟨fun written => ?_, fun i hi written unwritten => ?_⟩
  · obtain ⟨m, hm⟩ := xorBytes_completes (ks := KS.toList.take n) fun j hj => written j (hlen ▸ hj)
    obtain ⟨hwindow, hrest, _⟩ := xorBytes_ok hm
    refine ⟨m, xorWindow_of_xorBytes_ok hm, fun j hj b hb => ?_, by simpa only [hlen] using hrest⟩
    obtain ⟨b', hb', hread⟩ := hwindow j (by omega)
    obtain rfl : b' = b := Option.some.inj (hb'.symm.trans hb)
    simpa using hread
  · exact xorWindow_of_xorBytes_error (xorBytes_faults (by omega) written unwritten)

/-- Settles O15: STREAM has no block to produce, and TRANSFORM passes its range check whatever the base. -/
theorem emptyWindowIsANoOp : Obligations.EmptyWindowIsANoOp := by
  intro s
  refine ⟨fun base => stream_of_length_zero base s, fun hlen valid => ?_, fun _ => exec_transform_of_not_valid⟩
  have empty : windowLen s = 0 := by simp [windowLen, hlen]
  exact exec_transform_of_empty_window valid empty

end Sys2Proof.Machine

namespace Sys2Proof.Machine

/-! ## Completion and the result codes

The result code case by case; what a core's turn with a command pending leaves, said once for the three ways it can end; and
the statements of 60_exceptions.md R200 to R202: O22, O23 and O54. -/

theorem resultCode_of_decode_error {s : State} {r : Reject} (h : decode s.PCMD = .error r) :
    resultCode s = .illegalCommand := by
  simp only [resultCode, h]

theorem resultCode_of_construct {s : State} {klen nlen rc : Nat} (h : decode s.PCMD = .ok (.construct klen nlen rc)) :
    resultCode s = if legalParameters klen nlen rc then .ok else .invalidParameter := by
  simp only [resultCode, h]

theorem resultCode_of_transform {s : State} (h : decode s.PCMD = .ok .transform) :
    resultCode s = if s.VALID = false then .notConstructed else if windowInRange s then .ok else .bufferRange := by
  simp only [resultCode, h]

theorem resultCode_of_discard {s : State} (h : decode s.PCMD = .ok .discard) : resultCode s = .ok := by
  simp only [resultCode, h]

/-- The schedule is no part of what the result code depends on. -/
@[simp] theorem resultCode_takeTurn (s : State) : resultCode (takeTurn s) = resultCode s := rfl

/-- STATUS bits 7:4 are the code of ERR: BUSY and VALID lie below them (10_state.md R31). -/
theorem statusWord_ERR_field (s : State) : (statusWord s).extractLsb' 4 4 = errBits s.ERR := by
  have layout : ∀ (busy valid : Bool) (code : BitVec 4),
      (zext32 (BitVec.ofBool busy) ||| zext32 (BitVec.ofBool valid) <<< 1 ||| zext32 code <<< 4).extractLsb' 4 4 = code := by
    decide
  exact layout s.BUSY s.VALID (errBits s.ERR)

/-- The three ways a pending command ends (60_exceptions.md R201, R202): normally; as a failed CONSTRUCT, which discards the
instance; or with the error of another command word, which is raised in the state as it was. -/
theorem coreTurn_next_of_busy {s t : State} (busy : s.BUSY = true) (h : coreTurn s = .next t) :
    (resultCode s = .ok ∧ ∃ u, t = succeed u) ∨
    ((∃ klen nlen rc, decode s.PCMD = .ok (.construct klen nlen rc)) ∧ resultCode s = .invalidParameter ∧
      t = raiseErr .invalidParameter (clearInstance s)) ∨
    ((¬ ∃ klen nlen rc, decode s.PCMD = .ok (.construct klen nlen rc)) ∧ t = raiseErr (resultCode s) s) := by
  obtain ⟨idle, _⟩ | ⟨_, r, hdecode, rfl⟩ | ⟨_, i, hdecode, hexec⟩ := coreTurn_next h
  · simp [busy] at idle
  · exact .inr (.inr ⟨by simp [hdecode], by rw [resultCode_of_decode_error hdecode]⟩)
  obtain ⟨klen, nlen, rc, rfl, legal, ht⟩ | ⟨klen, nlen, rc, rfl, illegal, ht⟩ | ⟨rfl, notValid, ht⟩ |
    ⟨rfl, valid, outOfRange, ht⟩ | ⟨rfl, valid, inRange, m, _, ht⟩ | ⟨rfl, ht⟩ := exec_next hexec
  · exact .inl ⟨by simp [resultCode_of_construct hdecode, legal], _, ht⟩
  · exact .inr (.inl ⟨⟨klen, nlen, rc, hdecode⟩, by simp [resultCode_of_construct hdecode, illegal], ht⟩)
  · have hcode : resultCode s = .notConstructed := by simp [resultCode_of_transform hdecode, notValid]
    exact .inr (.inr ⟨by simp [hdecode], hcode ▸ ht⟩)
  · have hcode : resultCode s = .bufferRange := by simp [resultCode_of_transform hdecode, valid, outOfRange]
    exact .inr (.inr ⟨by simp [hdecode], hcode ▸ ht⟩)
  · exact .inl ⟨by simp [resultCode_of_transform hdecode, valid, inRange], _, ht⟩
  · exact .inl ⟨resultCode_of_discard hdecode, _, ht⟩

/-- Completion: BUSY falls, and ERR takes the command's result code (60_exceptions.md R201). -/
theorem completes_of_coreTurn {s t : State} (busy : s.BUSY = true) (h : coreTurn s = .next t) :
    t.BUSY = false ∧ t.ERR = resultCode s := by
  obtain ⟨hcode, u, rfl⟩ | ⟨_, hcode, rfl⟩ | ⟨_, rfl⟩ := coreTurn_next_of_busy busy h
  · exact ⟨rfl, hcode.symm⟩
  · exact ⟨rfl, hcode.symm⟩
  · exact ⟨rfl, rfl⟩

/-- A host turn that answers while a command is pending leaves it pending: only a write could touch BUSY, and a write needs
BUSY = 0. -/
theorem hostTurn_keeps_busy {s t : State} (busy : s.BUSY = true) (h : hostTurn s = .next t) : t.BUSY = true := by
  obtain ⟨_, rfl⟩ | ⟨a, p, _, haccess⟩ | ⟨p, x, _, rfl⟩ := hostTurn_next h
  · exact busy
  · obtain ⟨x, rfl⟩ | ⟨idle, _⟩ | ⟨idle, _⟩ := hostAccess_next haccess
    · exact busy
    · simp [busy] at idle
    · simp [busy] at idle
  · exact busy

/-- Settles O22: completion leaves the result code in ERR, and STATUS bits 7:4 are the code of ERR. -/
theorem completedCommandReportsItsCode : Obligations.CompletedCommandReportsItsCode := by
  intro s t busy h
  obtain ⟨_, hERR⟩ := completes_of_coreTurn busy h
  exact ⟨hERR, (statusWord_ERR_field t).trans (congrArg errBits hERR)⟩

/-- Settles O23: of the three ways a command ends, the normal one leaves ERR = OK, and the other two are the two clauses. -/
theorem errorsArePrecise : Obligations.ErrorsArePrecise := by
  intro s t busy h failed
  obtain ⟨_, u, rfl⟩ | ⟨isConstruct, _, rfl⟩ | ⟨notConstruct, rfl⟩ := coreTurn_next_of_busy busy h
  · exact absurd (succeed_ERR u) failed
  · exact ⟨fun _ => rfl, fun notConstruct => absurd isConstruct notConstruct⟩
  · exact ⟨fun isConstruct => absurd isConstruct notConstruct, fun _ => rfl⟩

/-- Settles O54: reset clears BUSY, a host turn keeps it, and a core's turn is the completion of the pending command. -/
theorem busyFallsOnlyByCompletionOrReset : Obligations.BusyFallsOnlyByCompletionOrReset := by
  intro s t busy h
  obtain ⟨hturn, rfl⟩ | ⟨hturn, hhost⟩ | ⟨hturn, hcore⟩ := step_next h
  · simp [hturn]
  · simp [hturn, hostTurn_keeps_busy (s := takeTurn s) busy hhost]
  · obtain ⟨hBUSY, hERR⟩ := completes_of_coreTurn (s := takeTurn s) busy hcore
    simp [hturn, hBUSY, hERR]

end Sys2Proof.Machine

namespace Sys2Proof.Machine

/-! ## Encoding and decoding

The command word of a CONSTRUCT as a number, whose digits are its fields, and the two directions of the round trip of
30_encoding.md R81 and R84: O3, O4 and O5. -/

/-- The table of 30_encoding.md R81 as a number: the fields of CONSTRUCT are bytes laid side by side. -/
theorem toNat_encode_construct {klen nlen rc : Nat} (hklen : klen < 256) (hnlen : nlen < 256) (hrc : rc < 256) :
    (encode (.construct klen nlen rc)).toNat = 2 ^ 24 * rc + (2 ^ 16 * nlen + (2 ^ 8 * klen + 1)) := by
  rw [Nat.two_pow_add_eq_or_of_lt (i := 24) (by omega), Nat.two_pow_add_eq_or_of_lt (i := 16) (by omega),
    Nat.two_pow_add_eq_or_of_lt (i := 8) (by omega)]
  simp only [encode, BitVec.or_assoc, BitVec.toNat_or, BitVec.toNat_shiftLeft, BitVec.toNat_ofNat, Nat.shiftLeft_eq]
  simp (disch := omega) only [Nat.mod_eq_of_lt, Nat.mul_comm]

/-- The fields of the word of a CONSTRUCT are the ones it was built from. -/
theorem fields_encode_construct {klen nlen rc : Nat} (hklen : klen < 256) (hnlen : nlen < 256) (hrc : rc < 256) :
    fieldRSV (encode (.construct klen nlen rc)) = 0 ∧ fieldOP (encode (.construct klen nlen rc)) = 1 ∧
    (fieldKLEN (encode (.construct klen nlen rc))).toNat = klen ∧
    (fieldNLEN (encode (.construct klen nlen rc))).toNat = nlen ∧
    (fieldRCNT (encode (.construct klen nlen rc))).toNat = rc := by
  simp only [fieldRSV, fieldOP, fieldKLEN, fieldNLEN, fieldRCNT, BitVec.toNat_eq, BitVec.extractLsb'_toNat,
    toNat_encode_construct hklen hnlen hrc, Nat.shiftRight_eq_div_pow, BitVec.ofNat_eq_ofNat, BitVec.toNat_ofNat]
  omega

/-- Decoding inverts encoding (30_encoding.md R81, R84). -/
theorem decode_encode {i : Instr} (h : i.wellFormed = true) : decode (encode i) = .ok i := by
  cases i with
  | construct klen nlen rc =>
    obtain ⟨⟨hklen, hnlen⟩, hrc⟩ : (klen < 256 ∧ nlen < 256) ∧ rc < 256 := by simpa [Instr.wellFormed] using h
    obtain ⟨hRSV, hOP, hKLEN, hNLEN, hRCNT⟩ := fields_encode_construct hklen hnlen hrc
    exact decode_eq_ok_iff.2 ⟨hRSV, .inl ⟨hOP, by rw [hKLEN, hNLEN, hRCNT]⟩⟩
  | transform => exact decode_eq_transform_iff.2 (by decide)
  | discard => exact decode_eq_discard_iff.2 (by decide)

/-- A word with RSV = 0 and OP = 1 is the encoding of the CONSTRUCT of its three bytes. -/
theorem encode_fields {v : Word} (hRSV : fieldRSV v = 0) (hOP : fieldOP v = 1) :
    encode (.construct (fieldKLEN v).toNat (fieldNLEN v).toNat (fieldRCNT v).toNat) = v := by
  apply BitVec.eq_of_toNat_eq
  rw [toNat_encode_construct (fieldKLEN v).isLt (fieldNLEN v).isLt (fieldRCNT v).isLt]
  simp only [fieldRSV, fieldOP, fieldKLEN, fieldNLEN, fieldRCNT, BitVec.toNat_eq, BitVec.extractLsb'_toNat,
    Nat.shiftRight_eq_div_pow, BitVec.ofNat_eq_ofNat, BitVec.toNat_ofNat] at hRSV hOP ⊢
  omega

/-- A word that decodes carries a well-formed instruction. -/
theorem wellFormed_of_decode {v : Word} {i : Instr} (h : decode v = .ok i) : i.wellFormed = true := by
  obtain ⟨_, ⟨_, rfl⟩ | ⟨_, _, rfl⟩ | ⟨_, _, rfl⟩⟩ := decode_eq_ok_iff.1 h
  · have byte (b : BitVec 8) : b.toNat < 256 := b.isLt
    simp [Instr.wellFormed, byte]
  · rfl
  · rfl

/-- Encoding inverts decoding (30_encoding.md R81, R84). -/
theorem encode_of_decode {v : Word} {i : Instr} (h : decode v = .ok i) : encode i = v := by
  obtain ⟨hRSV, ⟨hOP, rfl⟩ | ⟨hOP, hZERO, rfl⟩ | ⟨hOP, hZERO, rfl⟩⟩ := decode_eq_ok_iff.1 h
  · exact encode_fields hRSV hOP
  · exact word_eq_iff_fields.2 ⟨hRSV.symm, hOP.symm, hZERO.symm⟩
  · exact word_eq_iff_fields.2 ⟨hRSV.symm, hOP.symm, hZERO.symm⟩

/-- Settles O4: the fields of the encoding are those of the instruction, and they select its case of the decoder. -/
theorem decodeOfEncodeIsTheInstruction : Obligations.DecodeOfEncodeIsTheInstruction := fun _ => decode_encode

/-- Settles O5: a word is its fields, and the encoding puts back those the decoder read. -/
theorem encodeOfDecodeIsTheWord : Obligations.EncodeOfDecodeIsTheWord :=
  fun _ _ h => ⟨wellFormed_of_decode h, encode_of_decode h⟩

/-- Settles O3: ten closed words, each run through the decoder. -/
theorem writtenOutWordsDecode : Obligations.WrittenOutWordsDecode := by
  unfold Obligations.WrittenOutWordsDecode
  decide

end Sys2Proof.Machine

namespace Sys2Proof.Machine

/-! ## The invariant of the machine

The invariant speaks of the buffer, its size and the instance alone. Each change of one of them keeps it, so each move of an
agent does, and so every step (10_state.md R20 to R23, 20_memory.md R53): O27 and O28. -/

section

variable {s t : State}

/-- What is not the buffer, its size or the instance does not enter the invariant. -/
theorem StateInvariant.congr (h : StateInvariant s) (hcfg : t.cfg = s.cfg) (hBUF : t.BUF = s.BUF) (hS : t.S = s.S)
    (hR : t.R = s.R) (hVALID : t.VALID = s.VALID) : StateInvariant t := by
  obtain ⟨canonical, inRange, whileValid, whileNotValid⟩ := h
  rw [← hBUF] at canonical
  rw [← hBUF, ← hcfg] at inRange
  rw [← hVALID, ← hS, ← hR] at whileValid whileNotValid
  exact ⟨canonical, inRange, whileValid, whileNotValid⟩

theorem StateInvariant.with_buffer (h : StateInvariant s) {m : Memory} (canonical : m.wf = true)
    (inRange : m.below s.cfg.BUF_BYTES = true) : StateInvariant { s with BUF := m } :=
  ⟨canonical, inRange, h.whileValid, h.whileNotValid⟩

theorem raiseErr_keeps_invariant (h : StateInvariant s) (code : ErrCode) : StateInvariant (raiseErr code s) :=
  h.congr rfl rfl rfl rfl rfl

theorem succeed_keeps_invariant (h : StateInvariant s) : StateInvariant (succeed s) :=
  h.congr rfl rfl rfl rfl rfl

/-- Without an instance S and R are zero. -/
theorem clearInstance_keeps_invariant (h : StateInvariant s) : StateInvariant (clearInstance s) where
  bufCanonical := h.bufCanonical
  bufInRange := h.bufInRange
  whileValid := by simp
  whileNotValid _ := ⟨rfl, rfl⟩

/-- The round count of legal parameters is legal, and fits the byte R (40_instance.md R100). -/
theorem round_count_legal {klen nlen rc : Nat} (legal : legalParameters klen nlen rc = true) :
    (BitVec.ofNat 8 rc).toNat ∈ Config.legalRounds := by
  obtain ⟨_, _, rfl | rfl | rfl⟩ := (legalParameters_iff klen nlen rc).1 legal <;> decide

/-- A successful CONSTRUCT leaves the constants and a legal round count (40_instance.md R100). -/
theorem setInstance_keeps_invariant (h : StateInvariant s) {klen nlen rc : Nat}
    (legal : legalParameters klen nlen rc = true) :
    StateInvariant (setInstance (initState (keyOf s.KEY) (nonceOf s.NONCE) s.CTR_INIT) (BitVec.ofNat 8 rc) s) where
  bufCanonical := h.bufCanonical
  bufInRange := h.bufInRange
  whileValid _ := by
    rw [initState_staged]
    exact ⟨constantsHeld_instanceWords _ _ _, round_count_legal legal⟩
  whileNotValid := by simp

/-- Word 12 is none of the constants. -/
theorem constantsHeld_set_counter {S : StateMatrix} (h : constantsHeld S) (c : Word) : constantsHeld (S.set 12 c) := by
  simpa [constantsHeld, Vector.getElem_set] using h

/-- A completed XOR writes written bytes only, and the counter is no part of what the invariant asks of an instance. -/
theorem streamed_keeps_invariant (h : StateInvariant s) (valid : s.VALID = true) {m : Memory} {a : Nat} {ks : List Byte}
    (hxor : xorBytes s.BUF a ks = .ok m) (blocks : Nat) : StateInvariant (streamed blocks m s) := by
  obtain ⟨_, _, keepsCanonical, keepsInRange⟩ := xorBytes_ok hxor
  obtain ⟨constants, legal⟩ := h.whileValid valid
  exact ⟨keepsCanonical h.bufCanonical, keepsInRange _ h.bufInRange,
    fun _ => ⟨constantsHeld_set_counter constants _, legal⟩, fun notValid => by simp [valid] at notValid⟩

theorem exec_keeps_invariant {i : Instr} (h : StateInvariant s) (hexec : exec i s = .next t) : StateInvariant t := by
  obtain ⟨_, _, _, _, legal, rfl⟩ | ⟨_, _, _, _, _, rfl⟩ | ⟨_, _, rfl⟩ | ⟨_, _, _, rfl⟩ |
    ⟨_, valid, _, _, hxor, rfl⟩ | ⟨_, rfl⟩ := exec_next hexec
  · exact succeed_keeps_invariant (setInstance_keeps_invariant h legal)
  · exact raiseErr_keeps_invariant (clearInstance_keeps_invariant h) _
  · exact raiseErr_keeps_invariant h _
  · exact raiseErr_keeps_invariant h _
  · exact succeed_keeps_invariant (streamed_keeps_invariant h valid hxor _)
  · exact succeed_keeps_invariant (clearInstance_keeps_invariant h)

theorem coreTurn_keeps_invariant (h : StateInvariant s) (hcore : coreTurn s = .next t) : StateInvariant t := by
  obtain ⟨_, rfl⟩ | ⟨_, _, _, rfl⟩ | ⟨_, _, _, hexec⟩ := coreTurn_next hcore
  · exact h
  · exact raiseErr_keeps_invariant h _
  · exact exec_keeps_invariant h hexec

/-- The one host access that touches what the invariant speaks of is a buffer write, below BUF_BYTES (20_memory.md R53). -/
theorem hostAccess_keeps_invariant {a : HostAccess} (h : StateInvariant s) (haccess : hostAccess a s = .next t) :
    StateInvariant t := by
  obtain ⟨_, rfl⟩ | ⟨_, _, v, r, _, _, rfl⟩ | ⟨_, b, v, _, hb, rfl⟩ := hostAccess_next haccess
  · exact h.congr rfl rfl rfl rfl rfl
  · obtain ⟨hS, hR, hVALID, _, hBUF, hcfg, _⟩ := writeReg_keeps r v s
    exact h.congr hcfg hBUF hS hR hVALID
  · have written : StateInvariant { s with BUF := s.BUF.write b v } :=
      h.with_buffer (Memory.wf_write h.bufCanonical b v) (Memory.below_write h.bufInRange hb v)
    exact written.congr rfl rfl rfl rfl rfl

theorem hostTurn_keeps_invariant (h : StateInvariant s) (hhost : hostTurn s = .next t) : StateInvariant t := by
  obtain ⟨_, rfl⟩ | ⟨_, p, _, haccess⟩ | ⟨_, _, _, rfl⟩ := hostTurn_next hhost
  · exact h
  · have started : StateInvariant { s with program := p } := h.congr rfl rfl rfl rfl rfl
    exact hostAccess_keeps_invariant started haccess
  · exact h.congr rfl rfl rfl rfl rfl

end

/-- Nothing is written and no instance exists right after reset (10_state.md R37). -/
theorem resetFor_invariant (c : Config) : StateInvariant (State.resetFor c) where
  bufCanonical := rfl
  bufInRange := rfl
  whileValid := by simp
  whileNotValid _ := ⟨rfl, rfl⟩

/-- Settles O28: a reset leaves the reset values, and a move of the host or the core keeps the invariant. -/
theorem everyStepKeepsTheInvariant : Obligations.EveryStepKeepsTheInvariant := by
  intro s t h hstep
  have taken : StateInvariant (takeTurn s) := h.congr rfl rfl rfl rfl rfl
  obtain ⟨_, rfl⟩ | ⟨_, hhost⟩ | ⟨_, hcore⟩ := step_next hstep
  · exact (resetFor_invariant s.cfg).congr rfl rfl rfl rfl rfl
  · exact hostTurn_keeps_invariant taken hhost
  · exact coreTurn_keeps_invariant taken hcore

/-- Settles O27: State.reset is the reset state of one configuration. -/
theorem resetMeetsTheInvariant : Obligations.ResetMeetsTheInvariant :=
  ⟨resetFor_invariant, resetFor_invariant Config.programs256⟩

end Sys2Proof.Machine

namespace Sys2Proof.Machine

/-! ## Frames, completion and windows one after another

What every command leaves unchanged, when a pending command completes, and the keystream of two windows that lie or come one
after the other (40_instance.md R103, 44_stream_processor.md R171 to R175): O13, O16, O17, O21 and O24. -/

/-- No command touches the configuration, the latch, the staging registers or the host's fields. -/
theorem exec_keeps_host_fields {i : Instr} {s t : State} (h : exec i s = .next t) :
    t.cfg = s.cfg ∧ t.PCMD = s.PCMD ∧ t.KEY = s.KEY ∧ t.NONCE = s.NONCE ∧ t.CTR_INIT = s.CTR_INIT ∧
      t.BUF_BASE = s.BUF_BASE ∧ t.BUF_LEN = s.BUF_LEN ∧ t.program = s.program ∧ t.trace = s.trace ∧
      t.turns = s.turns := by
  obtain ⟨_, _, _, _, _, rfl⟩ | ⟨_, _, _, _, _, rfl⟩ | ⟨_, _, rfl⟩ | ⟨_, _, _, rfl⟩ | ⟨_, _, _, _, _, rfl⟩ | ⟨_, rfl⟩ :=
    exec_next h
  all_goals exact ⟨rfl, rfl, rfl, rfl, rfl, rfl, rfl, rfl, rfl, rfl⟩

/-- TRANSFORM is the one command that touches the buffer. -/
theorem exec_keeps_BUF {i : Instr} {s t : State} (hi : i ≠ .transform) (h : exec i s = .next t) : t.BUF = s.BUF := by
  obtain ⟨_, _, _, _, _, rfl⟩ | ⟨_, _, _, _, _, rfl⟩ | ⟨rfl, _⟩ | ⟨rfl, _⟩ | ⟨rfl, _⟩ | ⟨_, rfl⟩ := exec_next h
  · rfl
  · rfl
  · exact absurd rfl hi
  · exact absurd rfl hi
  · exact absurd rfl hi
  · rfl

/-- TRANSFORM touches word 12 of S and the bytes of its window, and no other part of the instance or the buffer. -/
theorem exec_transform_frame {s t : State} (h : exec .transform s = .next t) :
    t.R = s.R ∧ t.VALID = s.VALID ∧ (∀ (j : Nat) (hj : j < 16), j ≠ 12 → t.S[j] = s.S[j]) ∧
      ∀ a, a < windowBase s ∨ windowBase s + windowLen s ≤ a → t.BUF.read a = s.BUF.read a := by
  obtain ⟨_, rfl⟩ | ⟨_, _, rfl⟩ | ⟨_, _, m, hm, rfl⟩ := execTransform_next h
  · exact ⟨rfl, rfl, fun _ _ _ => rfl, fun _ _ => rfl⟩
  · exact ⟨rfl, rfl, fun _ _ _ => rfl, fun _ _ => rfl⟩
  · obtain ⟨_, hrest, _⟩ := xorBytes_ok hm
    rw [keystream_length] at hrest
    exact ⟨rfl, rfl, fun j hj hne => Vector.getElem_set_ne (by decide) hj hne.symm, hrest⟩

/-- Settles O24: the three frames, of every command, of those without a window, and of TRANSFORM. -/
theorem commandsLeaveTheRestUnchanged : Obligations.CommandsLeaveTheRestUnchanged := by
  intro i s t h
  refine ⟨exec_keeps_host_fields h, fun hi a => ?_, fun hi => ?_⟩
  · rw [exec_keeps_BUF hi h]
  · subst hi
    exact exec_transform_frame h

/-! ### Completion -/

/-- Every command but TRANSFORM completes. -/
theorem exec_completes_of_ne_transform {i : Instr} (hi : i ≠ .transform) (s : State) : ∃ t, exec i s = .next t := by
  cases i with
  | construct klen nlen rc =>
    cases hl : legalParameters klen nlen rc
    · exact ⟨_, exec_construct_of_illegal hl s⟩
    · exact ⟨_, exec_construct_of_legal hl s⟩
  | transform => exact absurd rfl hi
  | discard => exact ⟨_, exec_discard s⟩

/-- TRANSFORM completes unless both its checks pass over a window with an unwritten byte (20_memory.md R57). -/
theorem exec_transform_completes_iff {s : State} : (∃ t, exec .transform s = .next t) ↔
    (s.VALID = true → windowInRange s = true → windowWritten (windowBase s) (windowLen s) s.BUF) := by
  constructor
  · rintro ⟨t, ht⟩ valid inRange i hi
    obtain ⟨m, hm, _⟩ := xorBytes_ok_of_exec_transform valid inRange ht
    obtain ⟨b, hb, _⟩ := read_of_xorBytes_keystream hm hi
    exact Option.isSome_of_eq_some hb
  · intro written
    cases valid : s.VALID
    · exact ⟨_, exec_transform_of_not_valid valid⟩
    cases inRange : windowInRange s
    · exact ⟨_, exec_transform_of_out_of_range valid inRange⟩
    obtain ⟨m, hm⟩ := xorBytes_keystream_completes s.S s.R (written valid inRange)
    exact ⟨_, exec_transform_of_xorBytes_ok valid inRange hm⟩

/-- The core's turn on a word that decodes is the execution of its command (40_instance.md R103). -/
theorem coreTurn_of_decode_ok {s : State} {i : Instr} (busy : s.BUSY = true) (h : decode s.PCMD = .ok i) :
    coreTurn s = exec i s := by
  simp only [coreTurn, coreStep, busy, h, if_true]

theorem commandCompletes_iff_coreTurn {s : State} (busy : s.BUSY = true) :
    commandCompletes s ↔ ∃ t, coreTurn s = .next t := by
  cases hdecode : decode s.PCMD with
  | error r =>
    have completes : commandCompletes s := fun h => by simp [hdecode] at h
    exact iff_of_true completes ⟨_, coreTurn_of_decode_error busy ⟨r, hdecode⟩⟩
  | ok i =>
    rw [coreTurn_of_decode_ok busy hdecode]
    by_cases hi : i = .transform
    · subst hi
      rw [exec_transform_completes_iff]
      exact forall_prop_of_true hdecode
    · have completes : commandCompletes s := fun h => absurd (Except.ok.inj (hdecode.symm.trans h)) hi
      exact iff_of_true completes (exec_completes_of_ne_transform hi s)

/-- Settles O21: a core's turn that answers a next state has completed the command, and only TRANSFORM can answer none. -/
theorem pendingCommandCompletes : Obligations.PendingCommandCompletes := by
  intro s busy
  rw [commandCompletes_iff_coreTurn busy]
  exact exists_congr fun t => (and_iff_left_of_imp fun h => (completes_of_coreTurn busy h).1).symm

/-- Settles O13: the XOR of the keystream into the window faults at the first unwritten byte, and TRANSFORM with it. -/
theorem transformFaultsAtTheFirstUnwrittenByte : Obligations.TransformFaultsAtTheFirstUnwrittenByte := by
  intro s i valid hin hi written unwritten
  have hlen : i < (keystream s.S s.R (windowLen s)).length := hi.trans_eq (keystream_length ..).symm
  exact exec_transform_of_xorBytes_error valid ((windowInRange_iff s).2 (.inr hin))
    (xorBytes_faults hlen written unwritten)

/-! ### Windows one after another -/

/-- An XOR of joined bytes that answers a memory is the XOR of the first part and then of the second. -/
theorem xorBytes_append_ok {m m' : Memory} {a : Nat} {ks ks' : List Byte} (h : xorBytes m a (ks ++ ks') = .ok m') :
    ∃ m₁, xorBytes m a ks = .ok m₁ ∧ xorBytes m₁ (a + ks.length) ks' = .ok m' := by
  rw [xorBytes_append] at h
  cases hfirst : xorBytes m a ks with
  | error f => simp [hfirst] at h
  | ok m₁ => exact ⟨m₁, rfl, by simpa only [hfirst] using h⟩

/-- Moving the counter twice is moving it by the sum. -/
theorem set_counter_add (S : StateMatrix) (m n : Nat) :
    (S.set 12 (S[12] + BitVec.ofNat 32 m)).set 12 ((S.set 12 (S[12] + BitVec.ofNat 32 m))[12] + BitVec.ofNat 32 n) =
      S.set 12 (S[12] + BitVec.ofNat 32 (m + n)) := by
  simp only [Vector.set_set, Vector.getElem_set_self, BitVec.ofNat_add, BitVec.add_assoc]

/-- Whole blocks: the keystream goes on with the block of the next counter (44_stream_processor.md R175). -/
theorem keystream_append (S : StateMatrix) (R : Byte) {lenA : Nat} (aligned : lenA % 64 = 0) (lenB : Nat) :
    keystream S R (lenA + lenB) =
      keystream S R lenA ++ keystream (S.set 12 (S[12] + BitVec.ofNat 32 (ceilDiv64 lenA))) R lenB := by
  refine List.ext_getElem (by simp) fun i hi _ => ?_
  rw [keystream_length] at hi
  rw [keystream_getElem _ _ _ _ hi]
  obtain hA | hB := Nat.lt_or_ge i lenA
  · rw [List.getElem_append_left (by simpa using hA), keystream_getElem _ _ _ _ hA]
  · have hblock : ceilDiv64 lenA + (i - lenA) / 64 = i / 64 := by unfold ceilDiv64; omega
    have hbyte : (i - lenA) % 64 = i % 64 := by omega
    rw [List.getElem_append_right (by simpa using hB)]
    simp only [keystream_length]
    rw [keystream_getElem _ _ _ _ (by omega)]
    simp only [set_counter_add, hblock, hbyte]

theorem ceilDiv64_add {lenA : Nat} (aligned : lenA % 64 = 0) (lenB : Nat) :
    ceilDiv64 (lenA + lenB) = ceilDiv64 lenA + ceilDiv64 lenB := by
  unfold ceilDiv64
  omega

/-- TRANSFORM of an instance whose window registers hold `base` and `len`, when its XOR answers a memory. -/
theorem exec_transform_of_window {s : State} {base len : Nat} {m : Memory} (valid : s.VALID = true)
    (hbase : s.BUF_BASE.toNat = base) (hlen : s.BUF_LEN.toNat = len) (hin : base + len ≤ s.cfg.BUF_BYTES)
    (hxor : xorBytes s.BUF base (keystream s.S s.R len) = .ok m) :
    exec .transform s = .next (succeed (streamed (ceilDiv64 len) m s)) := by
  subst hbase hlen
  exact exec_transform_of_xorBytes_ok valid ((windowInRange_iff s).2 (.inr hin)) hxor

/-- Settles O16: the XOR of the joined window is the XOR of its two parts, since the keystream of an aligned first part ends
at a block's end. -/
theorem alignedChunksEqualOneTransform : Obligations.AlignedChunksEqualOneTransform := by
  intro s lenA lenB valid aligned hbase hlen hin written
  have register {n : Nat} (h : n < 2 ^ 32) : (BitVec.ofNat 32 n).toNat = n := by simpa using h
  obtain ⟨m, hjoined⟩ := xorBytes_keystream_completes s.S s.R written
  obtain ⟨m₁, hfirst, hsecond⟩ := xorBytes_append_ok (keystream_append s.S s.R aligned lenB ▸ hjoined)
  rw [keystream_length] at hsecond
  have hlenA : lenA < 2 ^ 32 := by omega
  have hlenB : lenB < 2 ^ 32 := by omega
  have hinA : s.BUF_BASE.toNat + lenA ≤ s.cfg.BUF_BYTES := by omega
  refine ⟨_, _, _,
    exec_transform_of_window valid rfl (register hlenA) hinA hfirst,
    exec_transform_of_window (by exact valid) (register hbase) (register hlenB)
      ((Nat.add_assoc ..).trans_le hin) hsecond,
    exec_transform_of_window valid rfl (register hlen) hin hjoined, rfl, ?_, rfl, rfl, rfl⟩
  simp only [succeed_S, streamed_S, set_counter_add, ceilDiv64_add aligned]

/-- Settles O17: the second XOR starts from the counter the first TRANSFORM left, at byte 0 of its block. -/
theorem nextTransformStartsANewBlock : Obligations.NextTransformStartsANewBlock := by
  intro s t u base len valid hin hin' ht hu i hi
  obtain ⟨m, _, rfl⟩ := xorBytes_ok_of_exec_transform valid ((windowInRange_iff s).2 hin) ht
  obtain ⟨m', hm', rfl⟩ := xorBytes_ok_of_exec_transform (by exact valid) ((windowInRange_iff _).2 (.inr hin')) hu
  have hbyte := read_of_xorBytes_keystream hm' hi
  simp only [succeed_S, streamed_S, Vector.set_set, Vector.getElem_set_self] at hbyte
  exact hbyte

end Sys2Proof.Machine

namespace Sys2Proof.Machine

/-! ## The register map and the host accesses

The map of 10_state.md R36 in both directions; each access of 20_memory.md R51 to R56 case by case; what a register reads
after a register write; the layout of STATUS; the frame of the accesses and what they see of S: O41 to O49. -/

/-! ### The register map -/

/-- Every register stands in the slot its offset names. -/
theorem slotReg_offset (r : Reg) : r.offset % 4 = 0 ∧ slotReg (r.offset / 4) = some r := by
  cases r with
  | key j => revert j; decide
  | nonce j => revert j; decide
  | ctrInit => decide
  | bufBase => decide
  | bufLen => decide
  | cmd => decide
  | status => decide
  | counter => decide
  | rounds => decide
  | reserved k => revert k; decide

theorem offset_lt (r : Reg) : r.offset < 0x100 := by
  cases r <;> simp only [Reg.offset] <;> omega

theorem accessedReg_offset (r : Reg) : accessedReg 32 r.offset = some r := by
  obtain ⟨aligned, hslot⟩ := slotReg_offset r
  exact (if_pos ⟨rfl, aligned, offset_lt r⟩).trans hslot

/-- An aligned offset inside the window is the offset of a register (10_state.md R36). -/
theorem exists_reg_of_offset {off : Nat} (aligned : off % 4 = 0) (hoff : off < 0x100) : ∃ r : Reg, r.offset = off := by
  have reached : accessedReg 32 off ≠ none := fun hnone => accessedReg_eq_none_iff.1 hnone ⟨rfl, aligned, hoff⟩
  obtain ⟨r, hr⟩ := Option.ne_none_iff_exists'.1 reached
  exact ⟨r, offset_of_accessedReg hr⟩

/-- Settles O41: offset and slot are inverse to each other. -/
theorem registerMapIsABijection : Obligations.RegisterMapIsABijection := by
  refine ⟨fun r => ⟨accessedReg_offset r, (slotReg_offset r).1, offset_lt r⟩, fun _ _ _ => offset_of_accessedReg,
    fun off aligned hoff => ?_⟩
  obtain ⟨r, rfl⟩ := exists_reg_of_offset aligned hoff
  exact ⟨r, accessedReg_offset r⟩

/-! ### The accesses case by case -/

section

variable {s : State}

theorem regWrite_of_busy (busy : s.BUSY = true) (r : Reg) (v : Word) :
    hostAccess (.regWrite 32 r.offset v) s = .fault .hostAccessWhileBusy := by
  simp only [hostAccess, hostRegWrite, accessedReg_offset, busy, if_true]

theorem regWrite_of_idle (idle : s.BUSY = false) (r : Reg) (v : Word) :
    hostAccess (.regWrite 32 r.offset v) s = .next (record (.regW r.offset v) (writeReg r v s)) := by
  simp only [hostAccess, hostRegWrite, accessedReg_offset, idle, Bool.false_eq_true, if_false]

theorem regRead_of_busy (busy : s.BUSY = true) {r : Reg} (hr : r ≠ .status) :
    hostAccess (.regRead 32 r.offset) s = .fault .hostAccessWhileBusy := by
  simp only [hostAccess, hostRegRead, accessedReg_offset, busy, hr, ne_eq, not_false_iff, and_true, if_true]

theorem regRead_of_idle (idle : s.BUSY = false) (r : Reg) :
    hostAccess (.regRead 32 r.offset) s = .next (record (.regR r.offset (readReg r s)) s) := by
  simp only [hostAccess, hostRegRead, accessedReg_offset, idle, Bool.false_eq_true, false_and, if_false]

/-- STATUS reads whatever BUSY is (20_memory.md R55). -/
theorem regRead_status (s : State) :
    hostAccess (.regRead 32 0x3C) s = .next (record (.regR 0x3C (statusWord s)) s) := by
  have hstatus : accessedReg 32 0x3C = some .status := accessedReg_offset .status
  simp only [hostAccess, hostRegRead, hstatus, ne_eq, not_true, and_false, if_false, readReg]

variable {a : Nat}

theorem bufWrite_of_refused (ha : a ≥ s.cfg.BUF_BYTES) (v : Byte) :
    hostAccess (.bufWrite a v) s = .refused (.bufferAddress a) := by
  simp only [hostAccess, hostBufWrite, ha, if_true]

theorem bufRead_of_refused (ha : a ≥ s.cfg.BUF_BYTES) : hostAccess (.bufRead a) s = .refused (.bufferAddress a) := by
  simp only [hostAccess, hostBufRead, ha, if_true]

theorem bufWrite_of_busy (ha : a < s.cfg.BUF_BYTES) (busy : s.BUSY = true) (v : Byte) :
    hostAccess (.bufWrite a v) s = .fault .hostAccessWhileBusy := by
  simp only [hostAccess, hostBufWrite, ge_iff_le, ha.not_ge, busy, if_false, if_true]

theorem bufRead_of_busy (ha : a < s.cfg.BUF_BYTES) (busy : s.BUSY = true) :
    hostAccess (.bufRead a) s = .fault .hostAccessWhileBusy := by
  simp only [hostAccess, hostBufRead, ge_iff_le, ha.not_ge, busy, if_false, if_true]

theorem bufWrite_of_idle (ha : a < s.cfg.BUF_BYTES) (idle : s.BUSY = false) (v : Byte) :
    hostAccess (.bufWrite a v) s = .next (record (.bufW a v) { s with BUF := s.BUF.write a v }) := by
  simp only [hostAccess, hostBufWrite, ge_iff_le, ha.not_ge, idle, Bool.false_eq_true, if_false]

theorem bufRead_of_unwritten (ha : a < s.cfg.BUF_BYTES) (idle : s.BUSY = false) (hread : s.BUF.read a = none) :
    hostAccess (.bufRead a) s = .fault (.unwrittenRead a) := by
  simp only [hostAccess, hostBufRead, ge_iff_le, ha.not_ge, idle, Bool.false_eq_true, if_false, hread]

theorem bufRead_of_written (ha : a < s.cfg.BUF_BYTES) (idle : s.BUSY = false) {v : Byte}
    (hread : s.BUF.read a = some v) : hostAccess (.bufRead a) s = .next (record (.bufR a v) s) := by
  simp only [hostAccess, hostBufRead, ge_iff_le, ha.not_ge, idle, Bool.false_eq_true, if_false, hread]

end

/-! ### Register values -/

/-- Above CMD every register is read-only or reserved (20_memory.md R54, R56). -/
theorem writeReg_of_readOnly {r : Reg} (h : 0x3C ≤ r.offset) (v : Word) (s : State) : writeReg r v s = s := by
  cases r with
  | key j => simp only [Reg.offset] at h; omega
  | nonce j => simp only [Reg.offset] at h; omega
  | ctrInit => simp [Reg.offset] at h
  | bufBase => simp [Reg.offset] at h
  | bufLen => simp [Reg.offset] at h
  | cmd => simp [Reg.offset] at h
  | status => rfl
  | counter => rfl
  | rounds => rfl
  | reserved k => rfl

/-- Above ROUNDS every register is reserved and reads 0 (20_memory.md R56). -/
theorem readReg_of_reserved {r : Reg} (h : 0x48 ≤ r.offset) (s : State) : readReg r s = 0 := by
  cases r with
  | key j => simp only [Reg.offset] at h; omega
  | nonce j => simp only [Reg.offset] at h; omega
  | ctrInit => simp [Reg.offset] at h
  | bufBase => simp [Reg.offset] at h
  | bufLen => simp [Reg.offset] at h
  | cmd => simp [Reg.offset] at h
  | status => simp [Reg.offset] at h
  | counter => simp [Reg.offset] at h
  | rounds => simp [Reg.offset] at h
  | reserved k => rfl

/-- The read/write registers (10_state.md R26 to R29). -/
def Reg.isStaging (r : Reg) : Prop :=
  (∃ j, r = .key j) ∨ (∃ j, r = .nonce j) ∨ r = .ctrInit ∨ r = .bufBase ∨ r = .bufLen

theorem readReg_writeReg_same {r : Reg} (h : r.isStaging) (v : Word) (s : State) : readReg r (writeReg r v s) = v := by
  obtain ⟨j, rfl⟩ | ⟨j, rfl⟩ | rfl | rfl | rfl := h
  · exact Vector.getElem_set_self j.isLt
  · exact Vector.getElem_set_self j.isLt
  · rfl
  · rfl
  · rfl

theorem readReg_writeReg_other {r r' : Reg} (h : r.isStaging) (hne : r' ≠ r) (v : Word) (s : State) :
    readReg r' (writeReg r v s) = readReg r' s := by
  obtain ⟨j, rfl⟩ | ⟨j, rfl⟩ | rfl | rfl | rfl := h
  · cases r' with
    | key i => exact Vector.getElem_set_ne j.isLt i.isLt fun e => hne (congrArg Reg.key (Fin.ext e.symm))
    | _ => rfl
  · cases r' with
    | nonce i => exact Vector.getElem_set_ne j.isLt i.isLt fun e => hne (congrArg Reg.nonce (Fin.ext e.symm))
    | _ => rfl
  · cases r' with
    | ctrInit => exact absurd rfl hne
    | _ => rfl
  · cases r' with
    | bufBase => exact absurd rfl hne
    | _ => rfl
  · cases r' with
    | bufLen => exact absurd rfl hne
    | _ => rfl

/-- CMD is the one register whose write touches BUSY (20_memory.md R54). -/
theorem writeReg_BUSY {r : Reg} (h : r ≠ .cmd) (v : Word) (s : State) : (writeReg r v s).BUSY = s.BUSY := by
  cases r with
  | cmd => exact absurd rfl h
  | _ => rfl

@[simp] theorem writeReg_trace (r : Reg) (v : Word) (s : State) : (writeReg r v s).trace = s.trace := by
  cases r <;> rfl

/-- The trace stands in no register. -/
@[simp] theorem readReg_record (r : Reg) (x : Transaction) (s : State) : readReg r (record x s) = readReg r s := by
  cases r <;> rfl

/-- STATUS bit by bit for each value of its three fields (10_state.md R31). -/
theorem status_layout : ∀ (busy valid : Bool) (code : BitVec 4),
    let w : Word := zext32 (BitVec.ofBool busy) ||| zext32 (BitVec.ofBool valid) <<< 1 ||| zext32 code <<< 4
    w.getLsbD 0 = busy ∧ w.getLsbD 1 = valid ∧ w.extractLsb' 2 2 = 0 ∧ w.extractLsb' 8 24 = 0 := by decide

theorem errBits_le (code : ErrCode) : (errBits code).toNat ≤ 4 := by
  cases code <;> decide

/-! ### The statements of the register window -/

/-- Settles O42: an offset is that of its register, whose write the map gives; above CMD the write does nothing. -/
theorem registerWritesFollowTheMap : Obligations.RegisterWritesFollowTheMap := by
  intro s v
  refine ⟨fun off aligned hoff busy => ?_, fun idle => ⟨fun j hj => ?_, fun j hj => ?_, ?_, ?_, ?_, ?_,
    fun off aligned hlow hoff => ?_⟩⟩
  · obtain ⟨r, rfl⟩ := exists_reg_of_offset aligned hoff
    exact regWrite_of_busy busy r v
  · exact regWrite_of_idle idle (.key ⟨j, hj⟩) v
  · exact regWrite_of_idle idle (.nonce ⟨j, hj⟩) v
  · exact regWrite_of_idle idle .ctrInit v
  · exact regWrite_of_idle idle .bufBase v
  · exact regWrite_of_idle idle .bufLen v
  · exact regWrite_of_idle idle .cmd v
  · obtain ⟨r, rfl⟩ := exists_reg_of_offset aligned hoff
    rw [regWrite_of_idle idle, writeReg_of_readOnly hlow]
    rfl

/-- Settles O43: an offset is that of its register, whose value the map gives; above ROUNDS it is 0. -/
theorem registerReadsFollowTheMap : Obligations.RegisterReadsFollowTheMap := by
  intro s
  refine ⟨regRead_status s, fun off aligned hoff hne busy => ?_, fun idle => ⟨fun j hj => ?_, fun j hj => ?_,
    ?_, ?_, ?_, ?_, ?_, ?_, fun off aligned hlow hoff => ?_⟩⟩
  · obtain ⟨r, rfl⟩ := exists_reg_of_offset aligned hoff
    exact regRead_of_busy busy fun h => hne (congrArg Reg.offset h)
  · exact regRead_of_idle idle (.key ⟨j, hj⟩)
  · exact regRead_of_idle idle (.nonce ⟨j, hj⟩)
  · exact regRead_of_idle idle .ctrInit
  · exact regRead_of_idle idle .bufBase
  · exact regRead_of_idle idle .bufLen
  · exact regRead_of_idle idle .cmd
  · exact regRead_of_idle idle .counter
  · exact regRead_of_idle idle .rounds
  · obtain ⟨r, rfl⟩ := exists_reg_of_offset aligned hoff
    rw [regRead_of_idle idle, readReg_of_reserved hlow]
    rfl

/-- Settles O44: the three fields lie apart, and no code exceeds 4. -/
theorem statusHasItsLayout : Obligations.StatusHasItsLayout := by
  intro s
  obtain ⟨hBUSY, hVALID, hlow, hhigh⟩ := status_layout s.BUSY s.VALID (errBits s.ERR)
  exact ⟨hBUSY, hVALID, statusWord_ERR_field s, hlow, hhigh, errBits_le s.ERR⟩

/-- Settles O45: a write of a staging register leaves BUSY, reads back, and is seen in no other register. -/
theorem stagingRegistersReadBack : Obligations.StagingRegistersReadBack := by
  intro s r v (staging : r.isStaging) idle
  have notCmd : r ≠ .cmd := by rintro rfl; simp [Reg.isStaging] at staging
  have idle' : (record (.regW r.offset v) (writeReg r v s)).BUSY = false := (writeReg_BUSY notCmd v s).trans idle
  refine ⟨_, regWrite_of_idle idle r v, ?_, fun r' hne => ?_⟩
  · rw [regRead_of_idle idle', readReg_record, readReg_writeReg_same staging]
  · rw [readReg_record, readReg_writeReg_other staging hne]

/-- Settles O46: each clause is one case of the two buffer accesses. -/
theorem bufferAccessesFollowTheirRules : Obligations.BufferAccessesFollowTheirRules :=
  fun s a v => ⟨fun ha => ⟨bufRead_of_refused ha, bufWrite_of_refused ha v⟩,
    fun ha busy => ⟨bufRead_of_busy ha busy, bufWrite_of_busy ha busy v⟩,
    bufRead_of_unwritten, fun ha idle => bufRead_of_written ha idle,
    fun ha idle => ⟨_, bufWrite_of_idle ha idle v, Memory.read_write_same s.BUF a v,
      fun _ hx => Memory.read_write_other s.BUF v hx⟩⟩

/-- Settles O47: each clause is the busy case of one access. -/
theorem accessWhileBusyFaults : Obligations.AccessWhileBusyFaults := by
  intro s busy
  refine ⟨regRead_status s, fun off v aligned hoff => ?_, fun off aligned hoff hne => ?_,
    fun a v ha => bufWrite_of_busy ha busy v, fun a ha => bufRead_of_busy ha busy⟩
  · obtain ⟨r, rfl⟩ := exists_reg_of_offset aligned hoff
    exact regWrite_of_busy busy r v
  · obtain ⟨r, rfl⟩ := exists_reg_of_offset aligned hoff
    exact regRead_of_busy busy fun h => hne (congrArg Reg.offset h)

/-! ### The frame of the accesses -/

/-- Settles O48: of the three ways an access completes, one only records, one writes a register, one writes a byte. -/
theorem hostAccessesLeaveTheRestUnchanged : Obligations.HostAccessesLeaveTheRestUnchanged := by
  intro a s t h
  obtain ⟨x, rfl⟩ | ⟨_, off, v, r, rfl, _, rfl⟩ | ⟨_, b, v, rfl, _, rfl⟩ := hostAccess_next h
  · exact ⟨⟨rfl, rfl, rfl, rfl, rfl, rfl, rfl⟩, ⟨x, rfl⟩, fun _ _ _ => rfl, fun _ _ => rfl, fun _ _ _ _ _ => rfl,
      fun _ _ _ => ⟨rfl, fun _ _ => rfl⟩⟩
  · obtain ⟨hS, hR, hVALID, hERR, hBUF, hcfg, hprogram, hturns⟩ := writeReg_keeps r v s
    exact ⟨⟨hcfg, hS, hR, hVALID, hERR, hprogram, hturns⟩, ⟨.regW off v, by simp⟩, nofun, nofun,
      fun _ _ _ _ x => congrArg (Memory.read · x) hBUF, nofun⟩
  · refine ⟨⟨rfl, rfl, rfl, rfl, rfl, rfl, rfl⟩, ⟨.bufW b v, rfl⟩, nofun, nofun, nofun, fun x w e => ?_⟩
    cases e
    exact ⟨rfl, fun y hy => Memory.read_write_other s.BUF v hy⟩

/-- The state with another state matrix. -/
def withMatrix (S' : StateMatrix) (s : State) : State := { s with S := S' }

/-- The same answer, its next state with another state matrix. -/
def answerWithMatrix (S' : StateMatrix) : Host.Outcome State Fault Refusal → Host.Outcome State Fault Refusal
  | .next t => .next (withMatrix S' t)
  | .fault f => .fault f
  | .refused r => .refused r

@[simp] theorem withMatrix_BUSY (S' : StateMatrix) (s : State) : (withMatrix S' s).BUSY = s.BUSY := rfl

theorem writeReg_withMatrix (r : Reg) (v : Word) (S' : StateMatrix) (s : State) :
    writeReg r v (withMatrix S' s) = withMatrix S' (writeReg r v s) := by
  cases r <;> rfl

/-- COUNTER is the one register that reads a word of S, word 12 (10_state.md R38). -/
theorem readReg_withMatrix {S' : StateMatrix} {s : State} (h : S'[12] = s.S[12]) (r : Reg) :
    readReg r (withMatrix S' s) = readReg r s := by
  cases r with
  | counter => exact h
  | _ => rfl

/-- A host access does not depend on S outside word 12, and hands S on unchanged. -/
theorem hostAccess_withMatrix {S' : StateMatrix} {s : State} (h : S'[12] = s.S[12]) (a : HostAccess) :
    hostAccess a (withMatrix S' s) = answerWithMatrix S' (hostAccess a s) := by
  cases a with
  | regWrite width off v =>
    simp only [hostAccess, hostRegWrite, withMatrix_BUSY, writeReg_withMatrix]
    cases accessedReg width off with
    | none => rfl
    | some r => dsimp only; split_ifs <;> rfl
  | regRead width off =>
    simp only [hostAccess, hostRegRead, withMatrix_BUSY, readReg_withMatrix h]
    cases accessedReg width off with
    | none => rfl
    | some r => dsimp only; split_ifs <;> rfl
  | bufWrite a v =>
    dsimp only [hostAccess, hostBufWrite, withMatrix]
    split_ifs <;> rfl
  | bufRead a =>
    dsimp only [hostAccess, hostBufRead, withMatrix]
    cases s.BUF.read a <;> split_ifs <;> rfl

/-- Settles O49: the answer of the other state is the answer of the first with the other matrix in its next state. -/
theorem hostAccessesSeeOnlyTheCounterOfTheMatrix : Obligations.HostAccessesSeeOnlyTheCounterOfTheMatrix := by
  intro a s S' h
  have answer := hostAccess_withMatrix h a
  exact ⟨fun _ ht => answer.trans (congrArg _ ht), fun _ hf => answer.trans (congrArg _ hf),
    fun _ hr => answer.trans (congrArg _ hr)⟩

end Sys2Proof.Machine

namespace Sys2Proof.Machine

/-! ## Steps and runs

One step by who moves, the reset event, and runs of steps: a list of key writes, and a poll loop (30_encoding.md R89, R90,
40_instance.md R103, 70_reset_and_hazards.md R230, R260): O26, O50, O51, O52, O53, O55 and O56. -/

/-! ### One step -/

section

variable {s : State}

theorem step_of_core (h : nextTurn s = .core) : step s = coreTurn (takeTurn s) := by
  simp only [step, h, turn]

theorem step_of_host (h : nextTurn s = .host) : step s = hostTurn (takeTurn s) := by
  simp only [step, h, turn]

/-- An idle core keeps its state (60_exceptions.md R214). -/
theorem coreTurn_of_idle (idle : s.BUSY = false) : coreTurn s = .next s := by
  simp only [coreTurn, idle, Bool.false_eq_true, if_false]

theorem hostTurn_of_nil (h : s.program = []) : hostTurn s = .next s := by
  simp only [hostTurn, h]

theorem hostTurn_of_access {a : HostAccess} {p : List Stmt} (h : s.program = .access a :: p) :
    hostTurn s = hostAccess a { s with program := p } := by
  simp only [hostTurn, h]

/-- A poll reads STATUS, and stays the next statement while BUSY = 1 (30_encoding.md R89). -/
theorem hostTurn_of_poll {p : List Stmt} (h : s.program = .poll :: p) :
    hostTurn s = .next (record (.regR 0x3C (statusWord s)) { s with program := if s.BUSY then .poll :: p else p }) := by
  simp only [hostTurn, h]
  exact regRead_status { s with program := if s.BUSY then .poll :: p else p }

theorem hostTurn_of_poll_busy {p : List Stmt} (h : s.program = .poll :: p) (busy : s.BUSY = true) :
    hostTurn s = .next (record (.regR 0x3C (statusWord s)) s) := by
  rw [hostTurn_of_poll h, if_pos busy, ← h]

theorem hostTurn_of_poll_idle {p : List Stmt} (h : s.program = .poll :: p) (idle : s.BUSY = false) :
    hostTurn s = .next (record (.regR 0x3C (statusWord s)) { s with program := p }) := by
  rw [hostTurn_of_poll h, if_neg (by simp [idle])]

/-- With an empty schedule the core moves while BUSY = 1 and otherwise the host (log entry 1). -/
theorem nextTurn_of_nil (h : s.turns = []) : nextTurn s = if s.BUSY then .core else .host := by
  simp only [nextTurn, h]

theorem nextTurn_of_cons {x : Turn} {xs : List Turn} (h : s.turns = x :: xs) : nextTurn s = x := by
  simp only [nextTurn, h]

/-- A turn from an empty schedule leaves the schedule empty. -/
theorem takeTurn_of_nil (h : s.turns = []) : takeTurn s = s := by
  have hturns : s.turns.tail = s.turns := by rw [h, List.tail_nil]
  simp only [takeTurn, hturns]

end

/-- All bits of a table word of 32 bits count (30_encoding.md R80). -/
theorem tableWord_toNat (w : Word) : tableWord 32 w.toNat = w := by
  rw [tableWord, Nat.mod_eq_of_lt w.isLt, BitVec.ofNat_toNat, BitVec.setWidth_eq]

/-- Settles O51: the core's turn runs the decoded command, reports an ILLEGAL word, or is idle; a placed command is
decoded by the next step. -/
theorem stepRunsTheDecodedCommand : Obligations.StepRunsTheDecodedCommand := by
  refine ⟨fun s i hturn busy hdecode => ?_, fun s r hturn busy hdecode => ?_, fun s hturn idle => ?_,
    fun s w i hdecode => ?_⟩
  · exact step_of_runsCommand (runsCommand_eq_some.2 ⟨hturn, busy, hdecode⟩)
  · rw [step_of_core hturn]
    exact coreTurn_of_decode_error (s := takeTurn s) busy ⟨r, hdecode⟩
  · rw [step_of_core hturn]
    exact coreTurn_of_idle (s := takeTurn s) idle
  · rw [State.withFetchWord, tableWord_toNat]
    exact step_of_runsCommand (s := placeCommand w s) (runsCommand_eq_some.2 ⟨rfl, rfl, hdecode⟩)

/-- Settles O52: the host's turn is its next statement, and a poll the read of STATUS. -/
theorem stepRunsTheHostStatement : Obligations.StepRunsTheHostStatement := by
  intro s hturn
  rw [step_of_host hturn]
  exact ⟨hostTurn_of_nil (s := takeTurn s), fun _ _ => hostTurn_of_access (s := takeTurn s),
    fun _ => hostTurn_of_poll_busy (s := takeTurn s), fun _ => hostTurn_of_poll_idle (s := takeTurn s)⟩

/-- Settles O53: an idle core and a host without a statement do nothing. -/
theorem idleCoreKeepsItsState : Obligations.IdleCoreKeepsItsState := by
  intro s idle notReset nothingToDo
  cases hturn : nextTurn s with
  | reset => exact absurd hturn notReset
  | core =>
    rw [step_of_core hturn]
    exact coreTurn_of_idle (s := takeTurn s) idle
  | host =>
    obtain hcore | hprogram := nothingToDo
    · simp [hturn] at hcore
    · rw [step_of_host hturn]
      exact hostTurn_of_nil (s := takeTurn s) hprogram

/-- Every register reads 0 after reset (10_state.md R37). -/
theorem readReg_resetEvent (r : Reg) (s : State) : readReg r (resetEvent s) = 0 := by
  cases r with
  | key j => exact Vector.getElem_replicate j.isLt
  | nonce j => exact Vector.getElem_replicate j.isLt
  | counter => exact Vector.getElem_replicate (by decide)
  | status => simp [readReg, statusWord, errBits, zext32]
  | _ => rfl

/-- Settles O26: the reset event leaves the reset values, which every register reads as 0 and in which the core is idle. -/
theorem resetClearsTheCoreAtAnyTime : Obligations.ResetClearsTheCoreAtAnyTime := by
  intro s hreset
  refine ⟨resetEvent (takeTurn s), step_of_reset hreset, rfl, readReg_resetEvent .status _, readReg_resetEvent .counter _,
    readReg_resetEvent .rounds _, fun off hoff aligned => ?_, Memory.read_nil, coreTurn_of_idle rfl⟩
  obtain ⟨r, rfl⟩ := exists_reg_of_offset aligned hoff
  exact ⟨r, accessedReg_offset r, readReg_resetEvent r _⟩

/-- The one host access that raises BUSY is a write of CMD (20_memory.md R54). -/
theorem hostAccess_raises_BUSY {a : HostAccess} {s t : State} (idle : s.BUSY = false) (h : hostAccess a s = .next t)
    (busy : t.BUSY = true) :
    ∃ v, a = .regWrite 32 0x38 v ∧ t = record (.regW 0x38 v) (latchCommand v s) := by
  obtain ⟨_, rfl⟩ | ⟨_, off, v, r, rfl, hr, rfl⟩ | ⟨_, b, v, _, _, rfl⟩ := hostAccess_next h
  · simp [idle] at busy
  · obtain rfl : r = .cmd := by
      by_contra hne
      rw [record_BUSY, writeReg_BUSY hne, idle] at busy
      simp at busy
    obtain rfl : 0x38 = off := offset_of_accessedReg hr
    exact ⟨v, rfl, rfl⟩
  · simp [idle] at busy

/-- Settles O55: a reset and an idle core leave BUSY 0, and of the host's turns only a write of CMD raises it. -/
theorem busyRisesOnlyByACommandWrite : Obligations.BusyRisesOnlyByACommandWrite := by
  intro s t idle h busy
  obtain ⟨_, rfl⟩ | ⟨hturn, hhost⟩ | ⟨_, hcore⟩ := step_next h
  · simp at busy
  · refine ⟨hturn, ?_⟩
    obtain ⟨_, rfl⟩ | ⟨a, p, hprogram, haccess⟩ | ⟨_, _, _, rfl⟩ := hostTurn_next hhost
    · simp [idle] at busy
    · obtain ⟨v, rfl, rfl⟩ := hostAccess_raises_BUSY (s := { takeTurn s with program := p }) idle haccess busy
      exact ⟨v, p, hprogram, rfl⟩
    · simp [idle] at busy
  · rw [coreTurn_of_idle (s := takeTurn s) idle] at hcore
    cases hcore
    simp [idle] at busy

/-! ### Runs -/

theorem run_zero (s : State) : Host.Core.run core 0 s = .next s := rfl

theorem run_succ {s u : State} (h : step s = .next u) (k : Nat) :
    Host.Core.run core (k + 1) s = Host.Core.run core k u := by
  have hstep : core.step s = .next u := h
  simp only [Host.Core.run, hstep]

/-- With BUSY = 0 and an empty schedule a step runs the register write that is the host's next statement. -/
theorem step_of_wr {s : State} {r : Reg} {v : Word} {p : List Stmt} (idle : s.BUSY = false) (hturns : s.turns = [])
    (hprogram : s.program = wr r v :: p) :
    step s = .next (record (.regW r.offset v) (writeReg r v { s with program := p })) := by
  have hturn : nextTurn s = .host := by simp [nextTurn_of_nil hturns, idle]
  rw [step_of_host hturn, takeTurn_of_nil hturns, hostTurn_of_access hprogram]
  exact regWrite_of_idle (s := { s with program := p }) idle r v

/-- The key registers after a write of `f j` to each register j of the list. -/
def writeKeys (f : Fin 8 → Word) (js : List (Fin 8)) (KEY : Vector Word 8) : Vector Word 8 :=
  js.foldl (fun K (j : Fin 8) => K.set j (f j)) KEY

theorem getElem_writeKeys (f : Fin 8 → Word) (js : List (Fin 8)) (KEY : Vector Word 8) (i : Fin 8) :
    (writeKeys f js KEY)[i] = if i ∈ js then f i else KEY[i] := by
  induction js generalizing KEY with
  | nil => simp [writeKeys]
  | cons j js ih =>
    refine (ih (KEY.set j (f j))).trans ?_
    by_cases hi : i ∈ js
    · simp [hi]
    · obtain rfl | hne := eq_or_ne i j
      · simp [hi]
      · simp [hi, hne, Fin.val_inj, hne.symm]

/-- With BUSY = 0 and an empty schedule the host runs its writes of key registers one after another. -/
theorem run_key_writes (f : Fin 8 → Word) (p : List Stmt) (js : List (Fin 8)) {s : State} (idle : s.BUSY = false)
    (hturns : s.turns = []) (hprogram : s.program = js.map (fun j => wr (.key j) (f j)) ++ p) :
    Host.Core.run core js.length s = .next { s with
      KEY := writeKeys f js s.KEY, program := p,
      trace := s.trace ++ js.map fun j => .regW (Reg.key j).offset (f j) } := by
  induction js generalizing s with
  | nil =>
    obtain rfl : p = s.program := hprogram.symm
    simp [run_zero, writeKeys]
  | cons j js ih =>
    rw [List.length_cons, run_succ (step_of_wr idle hturns hprogram), ih (by exact idle) (by exact hturns) rfl]
    simp [writeReg, record, writeKeys]

/-- `setkey` writes word j of the key to register j (30_encoding.md R90). -/
theorem setkey_eq_map (key : Vector Byte 32) :
    setkey key = (List.finRange 8).map fun j => wr (.key j) (le32 key (4 * j)) := rfl

/-- Registers that hold the words of a key hold the key (20_memory.md R59). -/
theorem keyOf_eq_of_words {KEY : Vector Word 8} {key : Vector Byte 32} (h : ∀ j : Fin 8, KEY[j] = le32 key (4 * j)) :
    keyOf KEY = key := by
  refine Vector.ext fun i hi => ?_
  have hword : (keyOf KEY)[i] = byteOf KEY[i / 4] (i % 4) := by simp [keyOf]
  have hplace : 4 * (i / 4) + i % 4 = i := by omega
  have hj : KEY[i / 4] = le32 key (4 * (i / 4)) := h ⟨i / 4, by omega⟩
  rw [hword, hj, byteOf_le32 _ _ _ (by omega)]
  simp only [hplace]

/-- Settles O50: setkey is eight writes of key registers, and these hold the key's words afterwards. -/
theorem setkeyLoadsTheKey : Obligations.SetkeyLoadsTheKey := by
  intro s key p idle hturns hprogram
  rw [setkey_eq_map] at hprogram
  refine ⟨_, run_key_writes _ p (List.finRange 8) idle hturns hprogram, keyOf_eq_of_words fun j => ?_, rfl, by simp⟩
  rw [getElem_writeKeys, if_pos (List.mem_finRange j)]

/-- The core's turn leaves the host's fields alone. -/
theorem coreTurn_keeps_host {s t : State} (h : coreTurn s = .next t) :
    t.program = s.program ∧ t.trace = s.trace ∧ t.turns = s.turns := by
  obtain ⟨_, rfl⟩ | ⟨_, _, _, rfl⟩ | ⟨_, _, _, hexec⟩ := coreTurn_next h
  · exact ⟨rfl, rfl, rfl⟩
  · exact ⟨rfl, rfl, rfl⟩
  · obtain ⟨_, _, _, _, _, _, _, hhost⟩ := exec_keeps_host_fields hexec
    exact hhost

/-- With an empty schedule the core completes the pending command, and the poll's next read is its last. -/
theorem run_poll_of_completion {s : State} {p : List Stmt} (hturns : s.turns = []) (hprogram : s.program = .poll :: p)
    (busy : s.BUSY = true) (completes : commandCompletes s) :
    ∃ t, Host.Core.run core 2 s = .next t ∧ t.BUSY = false ∧ t.program = p ∧ t.turns = [] ∧
      t.trace = s.trace ++ [.regR 0x3C (statusWord t)] := by
  obtain ⟨u, hcore⟩ := (commandCompletes_iff_coreTurn busy).1 completes
  obtain ⟨idle, _⟩ := completes_of_coreTurn busy hcore
  obtain ⟨hprogram', htrace, hturns'⟩ := coreTurn_keeps_host hcore
  rw [hprogram] at hprogram'
  rw [hturns] at hturns'
  have hcoreTurn : nextTurn s = .core := by simp [nextTurn_of_nil hturns, busy]
  have hhostTurn : nextTurn u = .host := by simp [nextTurn_of_nil hturns', idle]
  have hstep : step s = .next u := by rw [step_of_core hcoreTurn, takeTurn_of_nil hturns, hcore]
  have hpoll : step u = .next (record (.regR 0x3C (statusWord u)) { u with program := p }) := by
    rw [step_of_host hhostTurn, takeTurn_of_nil hturns', hostTurn_of_poll_idle hprogram' idle]
  refine ⟨_, (run_succ hstep 1).trans (run_succ hpoll 0), idle, rfl, hturns', ?_⟩
  rw [← htrace]
  rfl

/-- A scheduled host turn of a busy poll reads STATUS and keeps the poll. -/
theorem step_of_poll_busy {s : State} {p : List Stmt} {xs : List Turn} (hturns : s.turns = .host :: xs)
    (hprogram : s.program = .poll :: p) (busy : s.BUSY = true) :
    step s = .next (record (.regR 0x3C (statusWord s)) (takeTurn s)) := by
  rw [step_of_host (nextTurn_of_cons hturns)]
  exact hostTurn_of_poll_busy (s := takeTurn s) hprogram busy

/-- Settles O56, by induction on the host turns scheduled: each reads the busy STATUS and keeps the poll; with none left the
core completes the command. -/
theorem pollLoopEnds : Obligations.PollLoopEnds := by
  intro n
  induction n with
  | zero =>
    intro s p hturns hprogram busy completes
    simpa using run_poll_of_completion hturns hprogram busy completes
  | succ n ih =>
    intro s p hturns hprogram busy completes
    rw [List.replicate_succ] at hturns
    have hstatus : statusWord (record (.regR 0x3C (statusWord s)) (takeTurn s)) = statusWord s := rfl
    obtain ⟨t, hrun, idle, hprogram', hturns', htrace⟩ :=
      ih (record (.regR 0x3C (statusWord s)) (takeTurn s)) p (congrArg List.tail hturns) hprogram busy completes
    refine ⟨t, (run_succ (step_of_poll_busy hturns hprogram busy) _).trans hrun, idle, hprogram', hturns',
      htrace.trans ?_⟩
    rw [hstatus, List.replicate_succ, record_trace, takeTurn_trace, List.append_assoc s.trace, List.singleton_append]

end Sys2Proof.Machine

namespace Sys2Proof.Machine

/-! ## The rounds of a block and the n-th block

ROUNDS as one run of quarter rounds and its fixed point, and the block of the n-th counter (42_quarter_round.md R136,
43_block_producer.md R154): O34 and O38. -/

/-- A double round is one run along the column and then the diagonal quadruples (42_quarter_round.md R135). -/
theorem doubleRound_eq_foldl (W : StateMatrix) : doubleRound W = (columnQuads ++ diagonalQuads).foldl qrAt W :=
  List.foldl_append.symm

/-- n double rounds are one run along n repetitions of their quadruples (42_quarter_round.md R136). -/
theorem doubleRound_iterate_eq_foldl (n : Nat) (W : StateMatrix) :
    doubleRound^[n] W = (List.replicate n (columnQuads ++ diagonalQuads)).flatten.foldl qrAt W := by
  induction n generalizing W with
  | zero => rfl
  | succ n ih =>
    rw [Function.iterate_succ_apply, ih, List.replicate_succ, List.flatten_cons, List.foldl_append, doubleRound_eq_foldl]

theorem roundSchedule_length (R : Nat) : (roundSchedule R).length = R / 2 * 8 := by
  simp [roundSchedule, columnQuads, diagonalQuads]

/-- QR of four zeros is four zeros, so a quarter round leaves the zero matrix as it is. -/
theorem qrAt_zero (q : Quad) : qrAt (Vector.replicate 16 0) q = Vector.replicate 16 0 := by
  have hqr : qr 0 0 0 0 = (0, 0, 0, 0) := by decide
  refine stateMatrix_ext fun j => ?_
  simp only [Fin.getElem_fin, qrAt_getElem, Vector.getElem_replicate, hqr, ite_self]

theorem foldl_qrAt_zero (qs : List Quad) : qs.foldl qrAt (Vector.replicate 16 0) = Vector.replicate 16 0 := by
  induction qs with
  | nil => rfl
  | cons q qs ih => rw [List.foldl_cons, qrAt_zero, ih]

/-- Settles O34: ROUNDS is the run along its schedule, eight quarter rounds for each double round, none of which moves
zero. -/
theorem roundsRunFourQuarterRoundsPerRound : Obligations.RoundsRunFourQuarterRoundsPerRound := by
  intro W R
  have hrun (V : StateMatrix) : rounds V R = (roundSchedule R.toNat).foldl qrAt V := doubleRound_iterate_eq_foldl _ V
  refine ⟨hrun W, fun hR => ?_, (hrun _).trans (foldl_qrAt_zero _)⟩
  rw [roundSchedule_length]
  omega

/-- Settles O38: n blocks move the counter of the initial state by n, and nothing else. -/
theorem nthBlockHasItsClosedForm : Obligations.NthBlockHasItsClosedForm := by
  intro s key nonce c0 n hS
  simp only [afterBlock_iterate, block, ksBlock, hS, initState_counter, initState_set_counter]

end Sys2Proof.Machine
